-- ==== Sys2Proof/Word.lean ====
section
/-! DEFINITION. The value types of the block (00_scope.md R11, R12): bytes, 16-bit words, byte sequences. -/

namespace Sys2Proof

/-- A byte: 8 bits, bit 0 the least significant (00_scope.md R11). -/
abbrev Byte := BitVec 8

/-- A 16-bit word: the CRC, `ACC`, `RES.VAL`, a seed (00_scope.md R11, section 5). -/
abbrev Word := BitVec 16

/-- A byte sequence; index 0 is the byte sent or received first (00_scope.md R12). -/
abbrev Bytes := List Byte

/-- A byte sequence that the request port can carry: `REQ.N` has 8 bits, so at most 255 bytes
(30_encoding.md R39; 20_memory.md R27). `REQ.N` is the length, computed (log entry 7). -/
structure ByteSeq where
  bytes : Bytes
  le255 : bytes.length ≤ 255
deriving DecidableEq, Repr

end Sys2Proof
end

