-- ==== Sys2Proof/Config.lean ====
section
/-! DEFINITION. The four parameters of a block instance (00_scope.md R7 to R10), as plain data. -/

namespace Sys2Proof

/-- Which `CRC_STEP` the instance has (00_scope.md R7). `r62` is the default instance of 40_crc.md R62;
`free k` is any other: an uninterpreted function about which nothing is known (log entry 2). -/
inductive CrcInstance
  | r62
  | free (k : Nat)
deriving DecidableEq, Repr

/-- The value of `CRC_STEP` under `CrcInstance.free k`: FREE VALUE, nothing constrains it. The properties
40_crc.md R60 and R61 ask of an instance are hypotheses, by name, of the statements that need them. -/
opaque Config.freeCrcStep : Nat → Word → Byte → Word

/-- One row of `OPSIZE`: the least and greatest payload length of an opcode, `lo <= hi` (00_scope.md R9). -/
structure OpsizeRow where
  op : Byte
  lo : Nat
  hi : Nat
  le : lo ≤ hi
deriving DecidableEq, Repr

/-- The parameters, fixed for the life of an instance (00_scope.md section 5; log entry 1).
`maxPayload` is `MAX_PAYLOAD`, 0 to 248 (R8); an opcode without a row in `opsizes` has
`OPSIZE(op) = (0, MAX_PAYLOAD)` (R9; log entry 3); `framedStatus` is `FRAMED_STATUS` (R10). -/
structure Config where
  crc : CrcInstance
  maxPayload : Fin 249
  opsizes : List OpsizeRow
  framedStatus : Bool
deriving DecidableEq, Repr

/-- The parameter values used in the spec's vectors unless a vector says otherwise
(92_eei_decisions.md, "Open parameters, in one place"). -/
def Config.standard : Config where
  crc := .r62
  maxPayload := 248
  opsizes := []
  framedStatus := false

end Sys2Proof
end

