-- ==== Sys2Proof/Syntax.lean ====
section
/-! DEFINITION. The names of the block: result kinds, reasons, status codes, the instruction set (one
constructor per row of spec/opcode_table.json), the request record, the encoded forms and the host's events. -/

namespace Sys2Proof

/-- `RES.KIND` (10_state.md R18), in the order of its numbers 0 to 5. Values 6 and 7 are never written. -/
inductive Kind
  | none
  | success
  | parameterError
  | communicationError
  | deviceExecError
  | authenticationFailure
deriving DecidableEq, Repr

/-- `RES.REASON` (60_exceptions.md R96), in the order of its numbers 0 to 6. Value 7 is never written. -/
inductive Reason
  | none
  | empty
  | badCount
  | short
  | long
  | crcMismatch
  | unmappedStatus
deriving DecidableEq, Repr

/-- The six outcomes, one to one with the six status codes (43_status_map.md R90). -/
inductive StatusCode
  | ok
  | checkMacFail
  | execError
  | ready
  | paddingError
  | badParameters
deriving DecidableEq, Repr

/-- The instruction set: one constructor per row of spec/opcode_table.json. The first nine are the
operations (30_encoding.md R40), with the request fields each reads. The next six are the status codes
(R50): the block is handed that byte for its mapper. The last three are the wire formats (R43, R46, R48)
with their fields: the block is handed that sequence for its decoder (log entry 5). -/
inductive Instr
  /-- `CRC.CLR` (40_crc.md R63). -/
  | crcClr
  /-- `CRC.SEED`; the seed's low byte, then its high byte (40_crc.md R64). -/
  | crcSeed (c0 c1 : Byte)
  /-- `CRC.BYTE` (40_crc.md R65). -/
  | crcByte (a : Byte)
  /-- `CRC.BUF` (40_crc.md R66). -/
  | crcBuf (data : Bytes)
  /-- `CRC.RD` (40_crc.md R67). -/
  | crcRd
  /-- `ENC.CMD`: opcode, param1, first and second param2 byte, payload (41_frame_encode.md R69). -/
  | encCmd (a b c0 c1 : Byte) (data : Bytes)
  /-- `DEC.CMD` (42_frame_decode.md R78). -/
  | decCmd (data : Bytes)
  /-- `DEC.RSP` (42_frame_decode.md R83). -/
  | decRsp (data : Bytes)
  /-- `ST.MAP` (43_status_map.md R89). -/
  | stMap (a : Byte)
  /-- `STATUS.OK`, 0x00. -/
  | statusOk
  /-- `STATUS.CheckMacFail`, 0x01. -/
  | statusCheckMacFail
  /-- `STATUS.ExecError`, 0x0F. -/
  | statusExecError
  /-- `STATUS.Ready`, 0x11. -/
  | statusReady
  /-- `STATUS.PaddingError`, 0x98. -/
  | statusPaddingError
  /-- `STATUS.BadParameters`, 0x99. -/
  | statusBadParameters
  /-- `FRAME.CMD`: a sound command frame with these fields (30_encoding.md R43 to R45). -/
  | frameCmd (opcode param1 p2_0 p2_1 : Byte) (payload : Bytes)
  /-- `FRAME.RSP`: a sound framed response with these data bytes (30_encoding.md R46, R47). -/
  | frameRsp (data : Bytes)
  /-- `FRAME.STATUS`: a bare status response (30_encoding.md R48). -/
  | frameStatus (status : Byte)
deriving DecidableEq, Repr

/-- The request record `REQ` (30_encoding.md R39). Its field `N` is `len(DATA)`: see `Request.n`. -/
structure Request where
  opsel : Byte
  a : Byte
  b : Byte
  c0 : Byte
  c1 : Byte
  data : ByteSeq
deriving DecidableEq, Repr

/-- What the host hands to the block, in the formats of spec/opcode_table.json: a request (REQ), a status
byte for the mapper (STATUS), a sequence to be read as a command frame (CMD_FRAME), a received response
(RSP_FRAME, RSP_BARE). The last three are the requests `ST.MAP`, `DEC.CMD`, `DEC.RSP` with that operand
(log entry 5). -/
inductive Encoded
  | request (r : Request)
  | status (b : Byte)
  | command (f : ByteSeq)
  | response (f : ByteSeq)
deriving DecidableEq, Repr

/-- An event of a run: a reset or something handed to the block (70_reset_and_hazards.md R126). -/
inductive Event
  | reset
  | issue (e : Encoded)
deriving DecidableEq, Repr

end Sys2Proof
end

