-- ==== Sys2Proof/WellFormed.lean ====
section
/-! DEFINITION. Which instruction terms have an encoding: the length bounds of the request port and of the
two frame layouts. Every other operand may have every value (30_encoding.md R56). -/

namespace Sys2Proof

/-- The longest `DATA` of a request (30_encoding.md R39; 20_memory.md R27). -/
def maxData : Nat := 255

/-- The longest payload of a command frame: `7 + n` fits the count byte (30_encoding.md R44). -/
def maxCommandPayload : Nat := 248

/-- The longest data of a framed response: `3 + m` fits the count byte (30_encoding.md R47). -/
def maxResponseData : Nat := 252

/-- The instruction can be written in its encoding. -/
def Instr.wf : Instr → Bool
  | .crcClr => true
  | .crcSeed _ _ => true
  | .crcByte _ => true
  | .crcBuf data => decide (data.length ≤ maxData)
  | .crcRd => true
  | .encCmd _ _ _ _ data => decide (data.length ≤ maxData)
  | .decCmd data => decide (data.length ≤ maxData)
  | .decRsp data => decide (data.length ≤ maxData)
  | .stMap _ => true
  | .statusOk => true
  | .statusCheckMacFail => true
  | .statusExecError => true
  | .statusReady => true
  | .statusPaddingError => true
  | .statusBadParameters => true
  | .frameCmd _ _ _ _ payload => decide (payload.length ≤ maxCommandPayload)
  | .frameRsp data => decide (data.length ≤ maxResponseData)
  | .frameStatus _ => true

end Sys2Proof
end

