-- ==== Sys2Proof/Machine/Operands.lean ====
section
/-! DEFINITION. The arithmetic of the block: byte split and join, slices, `CRC_STEP` and `crc16`, the payload
bounds, the two frame layouts and the structural check. Functions of their arguments alone. -/

namespace Sys2Proof

/-- `v[7:0]` (00_scope.md R11). -/
def loByte (v : Word) : Byte := v.extractLsb' 0 8

/-- `v[15:8]` (00_scope.md R11). -/
def hiByte (v : Word) : Byte := v.extractLsb' 8 8

/-- `zext_16(lo) | (zext_16(hi) << 8)` (30_encoding.md R41). -/
def joinBytes (lo hi : Byte) : Word := lo.zeroExtend 16 ||| (hi.zeroExtend 16 <<< 8)

/-- `s[i..j]`, both ends inclusive, empty when `j < i` (00_scope.md R12). -/
def slice (s : Bytes) (i j : Nat) : Bytes := (s.drop i).take (j + 1 - i)

/-- `s[i]` (00_scope.md R12); every use below has `i < len(s)`. -/
def byteAt (s : Bytes) (i : Nat) : Byte := s.getD i 0

/-- One bit of a byte enters the CRC (40_crc.md R62): shift left, and `0x8005` when the bit differs from
the bit shifted out. -/
def crcBit (a : Word) (d : Bool) : Word :=
  let m := a.getLsbD 15
  let a' := a <<< 1
  if d != m then a' ^^^ 0x8005 else a'

/-- The default `CRC_STEP`: the eight bits of the byte, least significant first (40_crc.md R62). -/
def crcStepR62 (a : Word) (b : Byte) : Word :=
  (List.range 8).foldl (fun acc k => crcBit acc (b.getLsbD k)) a

/-- The instance's `CRC_STEP` (00_scope.md R7; log entry 2). -/
def Config.crcStep (c : Config) : Word → Byte → Word :=
  match c.crc with
  | .r62 => crcStepR62
  | .free k => Config.freeCrcStep k

/-- `crc16(s, seed)`: the left fold of `CRC_STEP` over `s` from `seed` (40_crc.md R58). -/
def crc16 (step : Word → Byte → Word) (s : Bytes) (seed : Word) : Word := s.foldl step seed

/-- `OPSIZE(op)`: the first row for the opcode, else `(0, MAX_PAYLOAD)` (00_scope.md R9; log entry 3). -/
def Config.opsize (c : Config) (op : Byte) : Nat × Nat :=
  match c.opsizes.find? (fun row => row.op == op) with
  | some row => (row.lo, row.hi)
  | Option.none => (0, c.maxPayload.val)

/-- The encoder's check of a payload length (41_frame_encode.md R70): true when it is accepted. -/
def Config.accepts (c : Config) (op : Byte) (n : Nat) : Bool :=
  let (lo, hi) := c.opsize op
  !(decide (n > c.maxPayload.val) || decide (n < lo) || decide (n > hi))

/-- The CRC field over `body`: seed 0, low byte first (30_encoding.md R45; 20_memory.md R29). -/
def crcField (step : Word → Byte → Word) (body : Bytes) : Bytes :=
  let c := crc16 step body 0x0000
  [loByte c, hiByte c]

/-- The bytes of a command frame (30_encoding.md R43 to R45; 41_frame_encode.md R71). -/
def commandFrame (step : Word → Byte → Word) (op p1 q0 q1 : Byte) (payload : Bytes) : Bytes :=
  let body := [BitVec.ofNat 8 (7 + payload.length), op, p1, q0, q1] ++ payload
  body ++ crcField step body

/-- The bytes of a framed response (30_encoding.md R46, R47). -/
def responseFrame (step : Word → Byte → Word) (data : Bytes) : Bytes :=
  let body := BitVec.ofNat 8 (3 + data.length) :: data
  body ++ crcField step body

/-- `frame_check(s, min)`: the first fault in the order Empty, BadCount, Short, Long, CrcMismatch, or
`Reason.none` when the frame is sound (42_frame_decode.md R76, R77). -/
def frameCheck (step : Word → Byte → Word) (s : Bytes) (min : Nat) : Reason :=
  if s.length = 0 then .empty
  else
    let count := (byteAt s 0).toNat
    if count < min then .badCount
    else if s.length < count then .short
    else if s.length > count then .long
    else
      let c := crc16 step (slice s 0 (count - 3)) 0x0000
      if byteAt s (count - 2) ≠ loByte c ∨ byteAt s (count - 1) ≠ hiByte c then .crcMismatch
      else .none

/-- The least `count` of a command frame (30_encoding.md R44). -/
def minCommandCount : Nat := 7

/-- The least `count` of a framed response (30_encoding.md R47). -/
def minResponseCount : Nat := 3

/-- The payload of a sound command frame, `s[5..count-3]` (42_frame_decode.md R79). -/
def commandPayload (s : Bytes) : Bytes := slice s 5 ((byteAt s 0).toNat - 3)

/-- The data of a sound framed response, `s[1..count-3]` (42_frame_decode.md R83). -/
def responseData (s : Bytes) : Bytes := slice s 1 ((byteAt s 0).toNat - 3)

/-- A host that holds `param2` as a number passes its low byte first (20_memory.md R30). -/
def param2OfWord (v : Word) : Byte × Byte := (loByte v, hiByte v)

end Sys2Proof
end

