-- ==== Sys2Proof/Machine/Flags.lean ====
section
/-! DEFINITION. What stands in the place of flags: the block has no condition codes (10_state.md R23), and a
host branches on `RES.KIND` and under it `RES.STATUS`. The codes of kinds, reasons and statuses, and the
status mapper's two functions. -/

namespace Sys2Proof

/-- The 3-bit number of a kind (10_state.md R18). -/
def Kind.code : Kind → BitVec 3
  | .none => 0
  | .success => 1
  | .parameterError => 2
  | .communicationError => 3
  | .deviceExecError => 4
  | .authenticationFailure => 5

/-- The 3-bit number of a reason (60_exceptions.md R96). -/
def Reason.code : Reason → BitVec 3
  | .none => 0
  | .empty => 1
  | .badCount => 2
  | .short => 3
  | .long => 4
  | .crcMismatch => 5
  | .unmappedStatus => 6

/-- The byte of a status code (30_encoding.md R50). -/
def StatusCode.byte : StatusCode → Byte
  | .ok => 0x00
  | .checkMacFail => 0x01
  | .execError => 0x0F
  | .ready => 0x11
  | .paddingError => 0x98
  | .badParameters => 0x99

/-- `outcome_of(b)`: defined for the six listed bytes and no other (43_status_map.md R90). -/
def outcomeOf (b : Byte) : Option StatusCode :=
  match b.toNat with
  | 0x00 => some .ok
  | 0x01 => some .checkMacFail
  | 0x0F => some .execError
  | 0x11 => some .ready
  | 0x98 => some .paddingError
  | 0x99 => some .badParameters
  | _ => Option.none

/-- `kind_of(code)` (43_status_map.md R91). -/
def kindOf : StatusCode → Kind
  | .ok => .success
  | .checkMacFail => .authenticationFailure
  | .execError => .deviceExecError
  | .ready => .success
  | .paddingError => .parameterError
  | .badParameters => .parameterError

end Sys2Proof
end

