-- ==== Sys2Proof/Decode.lean ====
section
/-! DEFINITION. Decoding what the host hands to the block into an instruction, total, rejecting by name
(30_encoding.md R40 to R53), and after it the encoder. -/

namespace Sys2Proof

/-- Why something handed to the block is no instruction. Each has the result the spec gives it
(`Sys2Proof.Machine.takeReject`); none stops the block (60_exceptions.md R102). -/
inductive Reject
  /-- An `OPSEL` among 0x05 to 0x07 and 0x0C to 0xFF (30_encoding.md R42). -/
  | reservedOpsel (opsel : Byte)
  /-- A status byte that is none of the six (30_encoding.md R51). -/
  | unlistedStatus (b : Byte)
  /-- A sequence that is no sound command frame, with the first fault (30_encoding.md R52). -/
  | unsoundCommand (r : Reason)
  /-- A sequence that is no response in either form, with the first fault (30_encoding.md R52). -/
  | unsoundResponse (r : Reason)
deriving DecidableEq, Repr

/-- `REQ.N = len(DATA)` (30_encoding.md R39). -/
def Request.n (r : Request) : Byte := BitVec.ofNat 8 r.data.bytes.length

/-- The operation a request selects, with the fields it reads (30_encoding.md R40, R41). -/
def decodeRequest (r : Request) : Except Reject Instr :=
  match r.opsel.toNat with
  | 0x00 => .ok .crcClr
  | 0x01 => .ok (.crcSeed r.c0 r.c1)
  | 0x02 => .ok (.crcByte r.a)
  | 0x03 => .ok (.crcBuf r.data.bytes)
  | 0x04 => .ok .crcRd
  | 0x08 => .ok (.encCmd r.a r.b r.c0 r.c1 r.data.bytes)
  | 0x09 => .ok (.decCmd r.data.bytes)
  | 0x0A => .ok (.decRsp r.data.bytes)
  | 0x0B => .ok (.stMap r.a)
  | _ => .error (.reservedOpsel r.opsel)

/-- The row of the status table a byte stands for (30_encoding.md R50, R51). -/
def decodeStatus (b : Byte) : Except Reject Instr :=
  match outcomeOf b with
  | some .ok => .ok .statusOk
  | some .checkMacFail => .ok .statusCheckMacFail
  | some .execError => .ok .statusExecError
  | some .ready => .ok .statusReady
  | some .paddingError => .ok .statusPaddingError
  | some .badParameters => .ok .statusBadParameters
  | Option.none => .error (.unlistedStatus b)

/-- The fields of a command frame, once it is found sound (30_encoding.md R43; 42_frame_decode.md R76). -/
def decodeCommand (c : Config) (s : Bytes) : Except Reject Instr :=
  match frameCheck c.crcStep s minCommandCount with
  | .none => .ok (.frameCmd (byteAt s 1) (byteAt s 2) (byteAt s 3) (byteAt s 4) (commandPayload s))
  | r => .error (.unsoundCommand r)

/-- The form of a response is told by its length alone (30_encoding.md R49): one byte is a bare status,
else it is a framed response, if sound. -/
def decodeResponse (c : Config) (s : Bytes) : Except Reject Instr :=
  if s.length = 1 then .ok (.frameStatus (byteAt s 0))
  else
    match frameCheck c.crcStep s minResponseCount with
    | .none => .ok (.frameRsp (responseData s))
    | r => .error (.unsoundResponse r)

/-- The instruction of whatever is handed to the block. -/
def decode (c : Config) : Encoded → Except Reject Instr
  | .request r => decodeRequest r
  | .status b => decodeStatus b
  | .command f => decodeCommand c f.bytes
  | .response f => decodeResponse c f.bytes

/-! The encoder. -/

/-- A byte sequence as the port carries it; a well-formed instruction's is never cut. -/
def ByteSeq.ofBytes (s : Bytes) : ByteSeq where
  bytes := s.take 255
  le255 := List.length_take_le 255 s

/-- A request with the given selector and every other field 0 (30_encoding.md R54). -/
def Request.blank (opsel : Byte) : Request where
  opsel := opsel
  a := 0
  b := 0
  c0 := 0
  c1 := 0
  data := ByteSeq.ofBytes []

/-- The encoding of an instruction (30_encoding.md R40, R43, R46, R48, R50); fields an operation does not
read are written 0 (R54). -/
def encode (c : Config) : Instr → Encoded
  | .crcClr => .request (Request.blank 0x00)
  | .crcSeed c0 c1 => .request { Request.blank 0x01 with c0 := c0, c1 := c1 }
  | .crcByte a => .request { Request.blank 0x02 with a := a }
  | .crcBuf data => .request { Request.blank 0x03 with data := ByteSeq.ofBytes data }
  | .crcRd => .request (Request.blank 0x04)
  | .encCmd a b c0 c1 data =>
    .request { opsel := 0x08, a := a, b := b, c0 := c0, c1 := c1, data := ByteSeq.ofBytes data }
  | .decCmd data => .request { Request.blank 0x09 with data := ByteSeq.ofBytes data }
  | .decRsp data => .request { Request.blank 0x0A with data := ByteSeq.ofBytes data }
  | .stMap a => .request { Request.blank 0x0B with a := a }
  | .statusOk => .status 0x00
  | .statusCheckMacFail => .status 0x01
  | .statusExecError => .status 0x0F
  | .statusReady => .status 0x11
  | .statusPaddingError => .status 0x98
  | .statusBadParameters => .status 0x99
  | .frameCmd op p1 q0 q1 payload =>
    .command (ByteSeq.ofBytes (commandFrame c.crcStep op p1 q0 q1 payload))
  | .frameRsp data => .response (ByteSeq.ofBytes (responseFrame c.crcStep data))
  | .frameStatus b => .response (ByteSeq.ofBytes [b])

/-- The request as its operation sees it: the fields it does not read (30_encoding.md R40, R41) set to 0.
A reserved selector reads none. -/
def Request.readPart (r : Request) : Request :=
  match r.opsel.toNat with
  | 0x01 => { Request.blank r.opsel with c0 := r.c0, c1 := r.c1 }
  | 0x02 => { Request.blank r.opsel with a := r.a }
  | 0x03 => { Request.blank r.opsel with data := r.data }
  | 0x08 => r
  | 0x09 => { Request.blank r.opsel with data := r.data }
  | 0x0A => { Request.blank r.opsel with data := r.data }
  | 0x0B => { Request.blank r.opsel with a := r.a }
  | _ => Request.blank r.opsel

/-- What is handed to the block, less what nothing reads. -/
def Encoded.readPart : Encoded → Encoded
  | .request r => .request r.readPart
  | .status b => .status b
  | .command f => .command f
  | .response f => .response f

/-- The request that hands the same thing to the block (log entry 5): a status byte to the mapper
(43_status_map.md R89), a sequence to the decoder (42_frame_decode.md R78, R83). -/
def Encoded.asRequest : Encoded → Request
  | .request r => r
  | .status b => { Request.blank 0x0B with a := b }
  | .command f => { Request.blank 0x09 with data := f }
  | .response f => { Request.blank 0x0A with data := f }

/-! The opcode table's words. The spec packs no request into a word (30_encoding.md R39); the order of the
fields above `OPSEL` is the model's (log entry 6). -/

/-- Byte `i` of a table word of `nbits` bits. -/
def tableByte (nbits w i : Nat) : Byte := BitVec.ofNat 8 (w % 2 ^ nbits / 256 ^ i)

/-- A table word as a request: `OPSEL`, `A`, `B`, `C0`, `C1`, `N`, then `N` bytes of `DATA`. -/
def Request.ofTableWord (nbits w : Nat) : Request where
  opsel := tableByte nbits w 0
  a := tableByte nbits w 1
  b := tableByte nbits w 2
  c0 := tableByte nbits w 3
  c1 := tableByte nbits w 4
  data := ByteSeq.ofBytes
    ((List.range (tableByte nbits w 5).toNat).map (fun i => tableByte nbits w (6 + i)))

/-- What a table word is handed to the block as: a request; a one-byte word whose `OPSEL` is reserved and
which is a listed status byte, that status byte (log entry 6). -/
def Encoded.ofTableWord (nbits w : Nat) : Encoded :=
  let r := Request.ofTableWord nbits w
  match decodeRequest r with
  | .ok _ => .request r
  | .error _ =>
    if nbits ≤ 8 ∧ (outcomeOf r.opsel).isSome then .status r.opsel else .request r

/-- The instruction of a table word; no word of this kind is a frame, so the parameters are not read. -/
def decodeTableWord (nbits w : Nat) : Option Instr :=
  match decode Config.standard (Encoded.ofTableWord nbits w) with
  | .ok i => some i
  | .error _ => Option.none

end Sys2Proof
end

