-- ==== Sys2Proof/Machine/State.lean ====
section
/-! DEFINITION. The state of a block instance as plain data, its value after reset, and the reasons a step
could stop. -/

namespace Sys2Proof.Machine

/-- The result record `RES` (10_state.md R17). -/
structure Result where
  /-- `KIND` (10_state.md R18). -/
  kind : Kind
  /-- `STATUS`: the status code, or the raw byte when `REASON = 6`, or 0 meaning nothing. -/
  status : Byte
  /-- `REASON` (60_exceptions.md R96). -/
  reason : Reason
  /-- `VAL`: `ACC` after a `CRC.*` operation, else 0. -/
  val : Word
  /-- `OPC`: the opcode byte a successful `DEC.CMD` extracted, else 0. -/
  opc : Byte
  /-- `P1`. -/
  p1 : Byte
  /-- `P2_0`: frame index 3. -/
  p2_0 : Byte
  /-- `P2_1`: frame index 4. -/
  p2_1 : Byte
  /-- `LEN`: the length of `OUT`. -/
  len : Byte
  /-- `OUT`: the frame built or the payload extracted. -/
  out : Bytes
deriving DecidableEq, Repr

/-- `RES` after reset: `KIND = 0` (`None`), every other field zero or empty (10_state.md R25). -/
def Result.reset : Result where
  kind := .none
  status := 0x00
  reason := .none
  val := 0x0000
  opc := 0x00
  p1 := 0x00
  p2_0 := 0x00
  p2_1 := 0x00
  len := 0
  out := []

/-- A block instance: `cfg` its parameters (log entry 1), `acc` the accumulator `ACC` (10_state.md R14),
`res` the result record `RES` (R17), `events` what the host has issued and the block has not yet performed,
oldest first, the model's own field (log entry 4). -/
structure State where
  cfg : Config
  acc : Word
  res : Result
  events : List Event
deriving DecidableEq, Repr

/-- The machine right after reset: `ACC = 0x0000`, `RES` empty (10_state.md R25; 70_reset_and_hazards.md
R110), the parameters of the spec's vectors (log entry 1), no event issued (log entry 4). -/
def State.reset : State where
  cfg := Config.standard
  acc := 0x0000
  res := Result.reset
  events := []

/-- Why the block could stop with a fault: for no reason. "There is no fatal condition, no halt and no
lock-up state in the block" (60_exceptions.md R102), so there is no constructor (log entry 9). -/
inductive Fault
deriving DecidableEq, Repr

/-- Why the model could refuse an instruction. -/
inductive Refusal
  /-- Raised only by an arm of `exec` for an instruction without a meaning; no arm raises it. Safe: the model
  stops where the block goes on. -/
  | notModelled (mnemonic : String)
deriving DecidableEq, Repr


end Sys2Proof.Machine
end

