-- ==== Sys2Proof/Machine/Ops.lean ====
section
/-! DEFINITION. The shared operations: writing the whole result record, raising an error, the status mapper,
the delivery of a sound frame, reset, and the result of what is no instruction. -/

namespace Sys2Proof.Machine

/-- `ok(status, val, opc, p1, p2_0, p2_1, out)` (10_state.md R19). -/
def Result.okRes (code : StatusCode) (val : Word := 0) (opc : Byte := 0) (p1 : Byte := 0) (p2_0 : Byte := 0)
    (p2_1 : Byte := 0) (out : Bytes := []) : Result where
  kind := kindOf code
  status := code.byte
  reason := .none
  val := val
  opc := opc
  p1 := p1
  p2_0 := p2_0
  p2_1 := p2_1
  len := BitVec.ofNat 8 out.length
  out := out

/-- `err(kind, reason, status)`: no output bytes, every data field 0 (10_state.md R20). -/
def Result.errRes (kind : Kind) (reason : Reason) (status : Byte) : Result where
  kind := kind
  status := status
  reason := reason
  val := 0
  opc := 0
  p1 := 0
  p2_0 := 0
  p2_1 := 0
  len := 0
  out := []

/-- An operation ends by writing the whole of `RES` and nothing else (10_state.md R15, R17). -/
def finish (r : Result) (s : State) : Host.Outcome State Fault Refusal :=
  .next { s with res := r }

/-- An operation of the CRC unit ends with `ACC` at `a` and `RES <- ok(0x00, a)` (40_crc.md, section 4). -/
def finishCrc (a : Word) (s : State) : Host.Outcome State Fault Refusal :=
  .next { s with acc := a, res := Result.okRes .ok (val := a) }

/-- `raise Kind(reason, status)`: the whole of error entry (60_exceptions.md R99). `RES` holds the error,
`ACC` is as it was, the operation is over; the next event is performed normally (R101). -/
def raise (kind : Kind) (reason : Reason) (status : Byte) (s : State) : Host.Outcome State Fault Refusal :=
  finish (Result.errRes kind reason status) s

/-- `map_status(b, out)` (42_frame_decode.md R83; 43_status_map.md R90 to R93). -/
def mapStatus (b : Byte) (out : Bytes) : Result :=
  match outcomeOf b with
  | some code => Result.okRes code (out := out)
  | Option.none => Result.errRes .communicationError .unmappedStatus b

/-- The result of a sound command frame with these fields (42_frame_decode.md R79). -/
def deliverCommand (opc p1 p2_0 p2_1 : Byte) (payload : Bytes) : Result :=
  Result.okRes .ok (opc := opc) (p1 := p1) (p2_0 := p2_0) (p2_1 := p2_1) (out := payload)

/-- The result of a sound framed response with these data: a status when `FRAMED_STATUS` and `count = 4`,
else data (42_frame_decode.md R83, R85). -/
def deliverResponse (c : Config) (data : Bytes) : Result :=
  if c.framedStatus = true ∧ 3 + data.length = 4 then mapStatus (byteAt data 0) data
  else Result.okRes .ok (out := data)

/-- Reset writes every piece of state but the parameters (70_reset_and_hazards.md R110). The events still
to come are the host's and stay. -/
def resetBlock (s : State) : Host.Outcome State Fault Refusal :=
  .next { s with acc := 0x0000, res := Result.reset }

/-- The result of what is no instruction: a reserved selector (30_encoding.md R42), an unlisted status byte
(43_status_map.md R92), an unsound sequence (42_frame_decode.md R79, R83). -/
def takeReject : Reject → State → Host.Outcome State Fault Refusal
  | .reservedOpsel _, s => raise .parameterError .none 0x99 s
  | .unlistedStatus b, s => raise .communicationError .unmappedStatus b s
  | .unsoundCommand r, s => raise .communicationError r 0x00 s
  | .unsoundResponse r, s => raise .communicationError r 0x00 s

/-- The oldest event not yet performed, and the state without it (20_memory.md R36; log entry 4). -/
def takeEvent (s : State) : Option (Event × State) :=
  match s.events with
  | [] => Option.none
  | e :: rest => some (e, { s with events := rest })

end Sys2Proof.Machine
end

