-- ==== Sys2Proof/Machine/CrcUnit.lean ====
section
/-! DEFINITION. The CRC unit: `CRC.CLR`, `CRC.SEED`, `CRC.BYTE`, `CRC.BUF`, `CRC.RD`. None can fail. -/

namespace Sys2Proof.Machine

/-- `CRC.CLR` (40_crc.md R63). -/
def execCrcClr (s : State) : Host.Outcome State Fault Refusal :=
  finishCrc 0x0000 s

/-- `CRC.SEED`: the seed is `C0` with `C1` above it (40_crc.md R64). -/
def execCrcSeed (c0 c1 : Byte) (s : State) : Host.Outcome State Fault Refusal :=
  finishCrc (joinBytes c0 c1) s

/-- `CRC.BYTE` (40_crc.md R65). -/
def execCrcByte (a : Byte) (s : State) : Host.Outcome State Fault Refusal :=
  finishCrc (s.cfg.crcStep s.acc a) s

/-- `CRC.BUF`: the bytes in index order, from whatever `ACC` holds (40_crc.md R66). -/
def execCrcBuf (data : Bytes) (s : State) : Host.Outcome State Fault Refusal :=
  finishCrc (crc16 s.cfg.crcStep data s.acc) s

/-- `CRC.RD`: `ACC` is read and not changed (40_crc.md R67). -/
def execCrcRd (s : State) : Host.Outcome State Fault Refusal :=
  finishCrc s.acc s

end Sys2Proof.Machine
end

