-- ==== Sys2Proof/Machine/Decoder.lean ====
section
/-! DEFINITION. The frame decoder: `DEC.CMD` and `DEC.RSP`. They neither read nor write `ACC`
(42_frame_decode.md R87). -/

namespace Sys2Proof.Machine

/-- `DEC.CMD`: structure and CRC only, neither `OPSIZE` nor `MAX_PAYLOAD` (42_frame_decode.md R79, R80). -/
def execDecCmd (data : Bytes) (s : State) : Host.Outcome State Fault Refusal :=
  match frameCheck s.cfg.crcStep data minCommandCount with
  | .none =>
    finish (deliverCommand (byteAt data 1) (byteAt data 2) (byteAt data 3) (byteAt data 4)
      (commandPayload data)) s
  | r => raise .communicationError r 0x00 s

/-- `DEC.RSP`: one byte is a bare status (42_frame_decode.md R84), else a framed response (R83, R85). -/
def execDecRsp (data : Bytes) (s : State) : Host.Outcome State Fault Refusal :=
  if data.length = 1 then finish (mapStatus (byteAt data 0) []) s
  else
    match frameCheck s.cfg.crcStep data minResponseCount with
    | .none => finish (deliverResponse s.cfg (responseData data)) s
    | r => raise .communicationError r 0x00 s

end Sys2Proof.Machine
end

