-- ==== Sys2Proof/Machine/Encoder.lean ====
section
/-! DEFINITION. The frame encoder: `ENC.CMD`. It neither reads nor writes `ACC` (41_frame_encode.md R73). -/

namespace Sys2Proof.Machine

/-- `ENC.CMD`: the length check decides whether a frame is built (41_frame_encode.md R70); the frame is left
in `RES.OUT` (R71). -/
def execEncCmd (a b c0 c1 : Byte) (data : Bytes) (s : State) : Host.Outcome State Fault Refusal :=
  if s.cfg.accepts a data.length then
    finish (Result.okRes .ok (out := commandFrame s.cfg.crcStep a b c0 c1 data)) s
  else raise .parameterError .none 0x99 s

end Sys2Proof.Machine
end

