-- ==== Sys2Proof/Machine/StatusMapper.lean ====
section
/-! DEFINITION. The status mapper: `ST.MAP`, and the six status codes handed to it. -/

namespace Sys2Proof.Machine

/-- `ST.MAP` (43_status_map.md R93). -/
def execStMap (a : Byte) (s : State) : Host.Outcome State Fault Refusal :=
  finish (mapStatus a []) s

/-- `STATUS.OK`, byte 0x00 (43_status_map.md R90, R91). -/
def execStatusOk (s : State) : Host.Outcome State Fault Refusal :=
  finish (Result.okRes .ok) s

/-- `STATUS.CheckMacFail`, byte 0x01 (43_status_map.md R90, R91). -/
def execStatusCheckMacFail (s : State) : Host.Outcome State Fault Refusal :=
  finish (Result.okRes .checkMacFail) s

/-- `STATUS.ExecError`, byte 0x0F (43_status_map.md R90, R91). -/
def execStatusExecError (s : State) : Host.Outcome State Fault Refusal :=
  finish (Result.okRes .execError) s

/-- `STATUS.Ready`, byte 0x11 (43_status_map.md R90, R91). -/
def execStatusReady (s : State) : Host.Outcome State Fault Refusal :=
  finish (Result.okRes .ready) s

/-- `STATUS.PaddingError`, byte 0x98 (43_status_map.md R90, R91). -/
def execStatusPaddingError (s : State) : Host.Outcome State Fault Refusal :=
  finish (Result.okRes .paddingError) s

/-- `STATUS.BadParameters`, byte 0x99 (43_status_map.md R90, R91). -/
def execStatusBadParameters (s : State) : Host.Outcome State Fault Refusal :=
  finish (Result.okRes .badParameters) s

end Sys2Proof.Machine
end

