-- ==== Sys2Proof/Machine/WireFormats.lean ====
section
/-! DEFINITION. The three wire formats handed to the decoder, already known to be sound: their decoding is
the structural check (log entry 5). -/

namespace Sys2Proof.Machine

/-- `FRAME.CMD`: the fields of a sound command frame are delivered (42_frame_decode.md R79). -/
def execFrameCmd (opcode param1 p2_0 p2_1 : Byte) (payload : Bytes) (s : State) :
    Host.Outcome State Fault Refusal :=
  finish (deliverCommand opcode param1 p2_0 p2_1 payload) s

/-- `FRAME.RSP`: the data of a sound framed response are delivered (42_frame_decode.md R85). -/
def execFrameRsp (data : Bytes) (s : State) : Host.Outcome State Fault Refusal :=
  finish (deliverResponse s.cfg data) s

/-- `FRAME.STATUS`: the one byte goes to the status mapper (42_frame_decode.md R84). -/
def execFrameStatus (status : Byte) (s : State) : Host.Outcome State Fault Refusal :=
  finish (mapStatus status []) s

end Sys2Proof.Machine
end

