-- ==== Sys2Proof/Machine/Dispatch.lean ====
section
/-! DEFINITION. One arm per constructor of Instr: each is one call of its meaning. -/

namespace Sys2Proof.Machine

def exec (i : Instr) (s : State) : Host.Outcome State Fault Refusal :=
  match i with
  | .crcClr => Sys2Proof.Machine.execCrcClr s
  | .crcSeed c0 c1 => Sys2Proof.Machine.execCrcSeed c0 c1 s
  | .crcByte a => Sys2Proof.Machine.execCrcByte a s
  | .crcBuf data => Sys2Proof.Machine.execCrcBuf data s
  | .crcRd => Sys2Proof.Machine.execCrcRd s
  | .encCmd a b c0 c1 data => Sys2Proof.Machine.execEncCmd a b c0 c1 data s
  | .decCmd data => Sys2Proof.Machine.execDecCmd data s
  | .decRsp data => Sys2Proof.Machine.execDecRsp data s
  | .stMap a => Sys2Proof.Machine.execStMap a s
  | .statusOk => Sys2Proof.Machine.execStatusOk s
  | .statusCheckMacFail => Sys2Proof.Machine.execStatusCheckMacFail s
  | .statusExecError => Sys2Proof.Machine.execStatusExecError s
  | .statusReady => Sys2Proof.Machine.execStatusReady s
  | .statusPaddingError => Sys2Proof.Machine.execStatusPaddingError s
  | .statusBadParameters => Sys2Proof.Machine.execStatusBadParameters s
  | .frameCmd opcode param1 p2_0 p2_1 payload => Sys2Proof.Machine.execFrameCmd opcode param1 p2_0 p2_1 payload s
  | .frameRsp data => Sys2Proof.Machine.execFrameRsp data s
  | .frameStatus status => Sys2Proof.Machine.execFrameStatus status s

end Sys2Proof.Machine
end

