-- ==== Sys2Proof/Machine/Perform.lean ====
section
/-! DEFINITION. What one event does, and what a sequence of events does (70_reset_and_hazards.md R126). -/

namespace Sys2Proof.Machine

/-- One event: a reset, or something handed to the block, decoded and performed whole (00_scope.md R6). -/
def perform (e : Event) (s : State) : Host.Outcome State Fault Refusal :=
  match e with
  | .reset => resetBlock s
  | .issue w =>
    match decode s.cfg w with
    | .ok i => exec i s
    | .error r => takeReject r s

/-- The state after a sequence of events: the state after its last (70_reset_and_hazards.md R126). -/
def performAll : List Event → State → Host.Outcome State Fault Refusal
  | [], s => .next s
  | e :: rest, s =>
    match perform e s with
    | .next t => performAll rest t
    | .fault f => .fault f
    | .refused r => .refused r

/-- What the host observes of a run: the `RES` records, one after each thing it hands to the block, none
after a reset (70_reset_and_hazards.md R126; 92_eei_decisions.md D31). -/
def trace : List Event → State → List Result
  | [], _ => []
  | e :: rest, s =>
    match perform e s with
    | .next t =>
      match e with
      | .reset => trace rest t
      | .issue _ => t.res :: trace rest t
    | .fault _ => []
    | .refused _ => []

end Sys2Proof.Machine
end

