-- ==== Sys2Proof/Machine/Step.lean ====
section
/-! DEFINITION. One step: the oldest event the host has issued is performed; with none, nothing happens. -/

namespace Sys2Proof.Machine

/-- One step of the block (00_scope.md R6; 20_memory.md R36). With no event issued the state stays as it is:
`RES` is latched (10_state.md R26) and nothing happens by itself (log entry 4). -/
def step (s : State) : Host.Outcome State Fault Refusal :=
  match takeEvent s with
  | Option.none => .next s
  | some (e, t) => perform e t

/-- The host issues the table word `w` next, before whatever it had issued (log entries 4 and 6). -/
def State.withFetchWord (s : State) (nbits w : Nat) : State :=
  { s with events := .issue (Encoded.ofTableWord nbits w) :: s.events }

end Sys2Proof.Machine
end

