-- ==== Sys2Proof/Machine/HostProcedures.lean ====
section
/-! DEFINITION. The assembler's lines (30_encoding.md R54) and the two pseudo-operations (R55). -/

namespace Sys2Proof.Machine

/-- A line of the assembler, as a tree (30_encoding.md R54; log entry 14), and the pseudo-operation
`CRC16 {bytes}, seed` (R55). A seed is a 16-bit number; a sequence of a request has at most 255 bytes. -/
inductive AsmLine
  | crcClr
  | crcSeed (v : Word)
  | crcByte (b : Byte)
  | crcBuf (data : ByteSeq)
  | crcRd
  | encCmd (op p1 q0 q1 : Byte) (payload : ByteSeq)
  | decCmd (data : ByteSeq)
  | decRsp (data : ByteSeq)
  | stMap (b : Byte)
  | crc16 (bytes : Bytes) (seed : Word)
deriving DecidableEq, Repr

/-- A buffer cut in order into pieces of at most 255 bytes; a buffer of at most 255 bytes is one piece
(30_encoding.md R55; 40_crc.md R66). DESIGN CHOICE: every piece but the last has the full 255 bytes, where R55
asks only for at most 255 and the host may split as it likes (70_reset_and_hazards.md R125; log entry 15).
`fuel` bounds the number of cuts. -/
def piecesFuel : Nat → Bytes → List Bytes
  | 0, s => [s]
  | fuel + 1, s => if s.length ≤ 255 then [s] else s.take 255 :: piecesFuel fuel (s.drop 255)

/-- The pieces of a buffer, cut as the model chooses (log entry 15): its length is fuel enough. -/
def pieces (s : Bytes) : List Bytes := piecesFuel s.length s

/-- The operations a line stands for (30_encoding.md R54, R55). -/
def AsmLine.instrs : AsmLine → List Instr
  | .crcClr => [.crcClr]
  | .crcSeed v => [.crcSeed (loByte v) (hiByte v)]
  | .crcByte b => [.crcByte b]
  | .crcBuf data => [.crcBuf data.bytes]
  | .crcRd => [.crcRd]
  | .encCmd op p1 q0 q1 payload => [.encCmd op p1 q0 q1 payload.bytes]
  | .decCmd data => [.decCmd data.bytes]
  | .decRsp data => [.decRsp data.bytes]
  | .stMap b => [.stMap b]
  | .crc16 bytes seed =>
    .crcSeed (loByte seed) (hiByte seed) :: ((pieces bytes).map .crcBuf ++ [.crcRd])

/-- A hexadecimal digit, capital letters as the spec writes them. -/
def hexDigit (n : Nat) : Char := Char.ofNat (if n < 10 then 48 + n else 55 + n)

/-- The two digits of a byte. -/
def hexByte (b : Byte) : List Char := [hexDigit (b.toNat / 16), hexDigit (b.toNat % 16)]

/-- A byte as an operand: `0x` and its digits (00_scope.md R11). -/
def hexOperand (b : Byte) : List Char := '0' :: 'x' :: hexByte b

/-- A byte sequence in braces, its bytes separated by a space (00_scope.md R11). -/
def seqText (s : Bytes) : List Char :=
  Char.ofNat 0x7B :: ((s.map hexByte).intersperse [' ']).flatten ++ [Char.ofNat 0x7D]

/-- A 16-bit number as an operand: `0x`, the high byte's digits, the low byte's. -/
def hexWord (v : Word) : List Char := '0' :: 'x' :: (hexByte (hiByte v) ++ hexByte (loByte v))

/-- A line as the assembler writes it (30_encoding.md R54, R55). -/
def AsmLine.text : AsmLine → List Char
  | .crcClr => "CRC.CLR".toList
  | .crcSeed v => "CRC.SEED ".toList ++ hexWord v
  | .crcByte b => "CRC.BYTE ".toList ++ hexOperand b
  | .crcBuf data => "CRC.BUF ".toList ++ seqText data.bytes
  | .crcRd => "CRC.RD".toList
  | .encCmd op p1 q0 q1 payload =>
    "ENC.CMD ".toList ++ hexOperand op ++ ", ".toList ++ hexOperand p1 ++ ", ".toList ++ seqText [q0, q1]
      ++ ", ".toList ++ seqText payload.bytes
  | .decCmd data => "DEC.CMD ".toList ++ seqText data.bytes
  | .decRsp data => "DEC.RSP ".toList ++ seqText data.bytes
  | .stMap b => "ST.MAP ".toList ++ hexOperand b
  | .crc16 bytes seed => "CRC16 ".toList ++ seqText bytes ++ ", ".toList ++ hexWord seed

/-- The events that issue a line's operations. -/
def AsmLine.assemble (c : Config) (l : AsmLine) : List Event :=
  l.instrs.map (fun i => .issue (encode c i))

/-- `EXECUTE op, p1, (q0 q1), (payload)`: the host procedure (30_encoding.md R55). The block frames the
command; if that fails the host stops with its result and makes no transport call; else the transport is
given `RES.OUT` and answers the received bytes, or nothing when it fails or times out, which the host reports
by `DEC.RSP` of no bytes (log entry 12); else `DEC.RSP` of the bytes received. -/
def execute (transport : Bytes → Option ByteSeq) (op p1 q0 q1 : Byte) (payload : ByteSeq) (s : State) :
    Host.Outcome State Fault Refusal :=
  match exec (.encCmd op p1 q0 q1 payload.bytes) s with
  | .next t =>
    if t.res.kind ≠ .success then .next t
    else
      match transport t.res.out with
      | some received => exec (.decRsp received.bytes) t
      | Option.none => exec (.decRsp []) t
  | .fault f => .fault f
  | .refused r => .refused r

end Sys2Proof.Machine
end

