-- ==== Sys2Proof/Safety.lean ====
section
/-! DEFINITION. What claims are stated in: the named properties of `CRC_STEP`, the status byte of a reception
and how a record reports it, when a result record is sound, the invariant of a block instance, and single-bit
corruption. -/

namespace Sys2Proof

/-- `P_ACC_INJ` (40_crc.md R60): a difference in the accumulator is never lost by a further byte. -/
def PAccInj (step : Word → Byte → Word) : Prop :=
  ∀ (b : Byte) (a a' : Word), a ≠ a' → step a b ≠ step a' b

/-- A byte with bit `k` inverted. -/
def flipBit (b : Byte) (k : Fin 8) : Byte := b ^^^ (1#8 <<< k.val)

/-- `P_BIT_INJ` (40_crc.md R61): a single-bit change in a byte always changes the accumulator after it. -/
def PBitInj (step : Word → Byte → Word) : Prop :=
  ∀ (a : Word) (b : Byte) (k : Fin 8), step a b ≠ step a (flipBit b k)

/-- `P_BYTE_INJ` (40_crc.md R61): the same for any two different bytes. -/
def PByteInj (step : Word → Byte → Word) : Prop :=
  ∀ (a : Word) (b b' : Byte), b ≠ b' → step a b ≠ step a b'

/-- The sequence with bit `k` of its byte `i` inverted (42_frame_decode.md R82). -/
def flipBitAt (s : Bytes) (i : Nat) (k : Fin 8) : Bytes := s.set i (flipBit (byteAt s i) k)

/-- `b` is the status byte of a reception (42_frame_decode.md R84, R85): its one byte, or the one payload byte
of a sound frame of four bytes under `FRAMED_STATUS`. -/
def StatusReceived (c : Config) (d : Bytes) (b : Byte) : Prop :=
  d = [b] ∨ (d.length ≠ 1 ∧ frameCheck c.crcStep d 3 = .none ∧ c.framedStatus = true ∧
    (byteAt d 0).toNat = 4 ∧ byteAt d 1 = b)

namespace Machine

/-- The record reports a status byte, `IsStatus` saying which byte it is if there is one: each failing kind
exactly for its codes, `UnmappedStatus` exactly for an unlisted byte, and the byte in `STATUS`
(43_status_map.md R91, R92; the last rows of 60_exceptions.md R97). -/
def Result.ReportsStatus (r : Result) (IsStatus : Byte → Prop) : Prop :=
  (r.kind = .authenticationFailure ↔ IsStatus 0x01) ∧
  (r.kind = .deviceExecError ↔ IsStatus 0x0F) ∧
  (r.kind = .parameterError ↔ IsStatus 0x98 ∨ IsStatus 0x99) ∧
  (r.reason = .unmappedStatus ↔ ∃ b, IsStatus b ∧ b ∉ [0x00, 0x01, 0x0F, 0x11, 0x98, 0x99]) ∧
  (∀ b, IsStatus b → r.status = b)

/-- The record holds `KIND`, `STATUS`, `REASON` and nothing else, as every error's does (60_exceptions.md R97;
10_state.md R20). -/
def Result.RecordsNothingElse (r : Result) : Prop :=
  r = { Result.reset with kind := r.kind, status := r.status, reason := r.reason }

/-- A result record the block can hold (10_state.md R17 to R20; 60_exceptions.md R96, R97; 43_status_map.md
R91, R92, R94): `LEN` is the length of `OUT`; `REASON` is 0 exactly when the kind is not CommunicationError;
outside it `STATUS` is a listed code and gives the kind; in it `STATUS` is 0, or the raw unlisted byte when
`REASON = 6`; only an `ok` carries data, only a Success the fields of a command frame; a reset record is
empty. -/
def Result.sound (r : Result) : Bool :=
  decide (r.len.toNat = r.out.length) &&
  decide (r.kind = .communicationError ↔ r.reason ≠ .none) &&
  (match r.kind with
   | .none => decide (r = Result.reset)
   | .communicationError =>
     decide (r = Result.mk .communicationError r.status r.reason 0 0 0 0 0 0 []) &&
     (if r.reason = .unmappedStatus then (outcomeOf r.status).isNone else decide (r.status = 0x00))
   | k =>
     (match outcomeOf r.status with
      | some code => decide (kindOf code = k)
      | Option.none => false) &&
     (decide (k = .success) ||
       decide (r.val = 0 ∧ r.opc = 0 ∧ r.p1 = 0 ∧ r.p2_0 = 0 ∧ r.p2_1 = 0 ∧ r.out.length ≤ 1)))

/-- The invariant of a block instance: its result record is one the block can hold, and `RES.VAL` is 0 or the
value of `ACC` (10_state.md R17). -/
def State.inv (s : State) : Bool :=
  s.res.sound && decide (s.res.val = 0 ∨ s.res.val = s.acc)

end Machine

end Sys2Proof
end

