-- ==== Sys2Proof/Certificates/Slice0/Obligations.lean ====
section
/-! DEFINITION. The statements for the provers. A result record written `{ Result.reset with … }` has every
field that is not named at zero or empty. -/

open Sys2Proof Sys2Proof.Machine

/-! ### Selectors, encodings, decoding -/

/-- R40: each of the nine values of `OPSEL` selects its operation, with the operands listed; every other value
is reserved. -/
def Obligations.SelectorSelectsOperation : Prop :=
  ∀ r : Request,
    (r.opsel = 0x00 → decodeRequest r = .ok .crcClr) ∧
    (r.opsel = 0x01 → decodeRequest r = .ok (.crcSeed r.c0 r.c1)) ∧
    (r.opsel = 0x02 → decodeRequest r = .ok (.crcByte r.a)) ∧
    (r.opsel = 0x03 → decodeRequest r = .ok (.crcBuf r.data.bytes)) ∧
    (r.opsel = 0x04 → decodeRequest r = .ok .crcRd) ∧
    (r.opsel = 0x08 → decodeRequest r = .ok (.encCmd r.a r.b r.c0 r.c1 r.data.bytes)) ∧
    (r.opsel = 0x09 → decodeRequest r = .ok (.decCmd r.data.bytes)) ∧
    (r.opsel = 0x0A → decodeRequest r = .ok (.decRsp r.data.bytes)) ∧
    (r.opsel = 0x0B → decodeRequest r = .ok (.stMap r.a)) ∧
    (r.opsel ∉ [0x00, 0x01, 0x02, 0x03, 0x04, 0x08, 0x09, 0x0A, 0x0B] →
      decodeRequest r = .error (.reservedOpsel r.opsel))

/-- Words written out from the spec's encodings decode to the instructions they stand for: the selectors of
R40, a request with operands in the model's packing (log entry 6), and the frames V-E1, V-E3 and V-P22 of
95_test_vectors.md under the default `CRC_STEP`. As selectors 0x0F and 0x99 are reserved (R42); that a
one-byte table word of them is read as the status byte of R50 is the model's choice too (log entry 6). -/
def Obligations.WrittenWordsDecode : Prop :=
  decodeTableWord 8 0x00 = some .crcClr ∧
  decodeTableWord 8 0x03 = some (.crcBuf []) ∧
  decodeTableWord 8 0x0B = some (.stMap 0x00) ∧
  decodeTableWord 8 0x0F = some .statusExecError ∧
  decodeTableWord 8 0x99 = some .statusBadParameters ∧
  decodeTableWord 8 0x05 = none ∧
  decodeTableWord 56 0x11010005001208 = some (.encCmd 0x12 0x00 0x05 0x00 [0x11]) ∧
  decode Config.standard (.command ⟨[0x07, 0x30, 0x00, 0x00, 0x00, 0x03, 0x5D], by decide⟩)
    = .ok (.frameCmd 0x30 0x00 0x00 0x00 []) ∧
  decode Config.standard
      (.command ⟨[0x0B, 0x12, 0x00, 0x05, 0x00, 0x11, 0x22, 0x33, 0x44, 0xA2, 0x42], by decide⟩)
    = .ok (.frameCmd 0x12 0x00 0x05 0x00 [0x11, 0x22, 0x33, 0x44]) ∧
  decode Config.standard (.response ⟨[0x07, 0xDE, 0xAD, 0xBE, 0xEF, 0xA4, 0x74], by decide⟩)
    = .ok (.frameRsp [0xDE, 0xAD, 0xBE, 0xEF]) ∧
  decode Config.standard (.response ⟨[0x0F], by decide⟩) = .ok (.frameStatus 0x0F)

/-- R42: a request with a reserved `OPSEL` performs no operation: `ACC` is unchanged and the result is
ParameterError with status `BadParameters`. -/
def Obligations.ReservedSelectorResult : Prop :=
  ∀ (s : State) (r : Request),
    (0x05 ≤ r.opsel.toNat ∧ r.opsel.toNat ≤ 0x07) ∨ (0x0C ≤ r.opsel.toNat ∧ r.opsel.toNat ≤ 0xFF) →
    perform (.issue (.request r)) s =
      .next { s with res := { Result.reset with kind := .parameterError, status := 0x99 } }

/-- R41: two requests with the same selector that agree on the fields the operation lists do the same; the
seed is assembled from `C0` and `C1`. -/
def Obligations.UnlistedFieldsIgnored : Prop :=
  (∀ (s : State) (r r' : Request), r.opsel = r'.opsel →
    (r.opsel ∈ [0x01, 0x08] → r.c0 = r'.c0 ∧ r.c1 = r'.c1) →
    (r.opsel ∈ [0x02, 0x08, 0x0B] → r.a = r'.a) →
    (r.opsel = 0x08 → r.b = r'.b) →
    (r.opsel ∈ [0x03, 0x08, 0x09, 0x0A] → r.data = r'.data) →
    perform (.issue (.request r)) s = perform (.issue (.request r')) s) ∧
  (∀ (s : State) (c0 c1 : Byte), ∃ t, exec (.crcSeed c0 c1) s = .next t ∧
    t.acc = (c0.zeroExtend 16 ||| (c1.zeroExtend 16 <<< 8)))

/-- Decoding the encoding of a well-formed instruction gives it back, for every instruction and all
parameters. -/
def Obligations.DecodeOfEncode : Prop :=
  ∀ (c : Config) (i : Instr), i.wf = true → decode c (encode c i) = .ok i

/-- What decodes to an instruction is that instruction's encoding, but for request fields nothing reads; and
the instruction is well formed. For frames: the fields determine every byte. -/
def Obligations.EncodeOfDecode : Prop :=
  ∀ (c : Config) (w : Encoded) (i : Instr), decode c w = .ok i → i.wf = true ∧ encode c i = w.readPart

/-- R54: the request each line of the assembler stands for, the fields not named being 0. -/
def Obligations.AssemblerLineRequests : Prop :=
  ∀ (c : Config) (v : Word) (b op p1 q0 q1 : Byte) (d : ByteSeq),
    AsmLine.crcClr.assemble c = [.issue (.request ⟨0x00, 0, 0, 0, 0, ⟨[], by decide⟩⟩)] ∧
    (AsmLine.crcSeed v).assemble c =
      [.issue (.request ⟨0x01, 0, 0, v.extractLsb 7 0, v.extractLsb 15 8, ⟨[], by decide⟩⟩)] ∧
    (AsmLine.crcByte b).assemble c = [.issue (.request ⟨0x02, b, 0, 0, 0, ⟨[], by decide⟩⟩)] ∧
    (AsmLine.crcBuf d).assemble c = [.issue (.request ⟨0x03, 0, 0, 0, 0, d⟩)] ∧
    AsmLine.crcRd.assemble c = [.issue (.request ⟨0x04, 0, 0, 0, 0, ⟨[], by decide⟩⟩)] ∧
    (AsmLine.encCmd op p1 q0 q1 d).assemble c = [.issue (.request ⟨0x08, op, p1, q0, q1, d⟩)] ∧
    (AsmLine.decCmd d).assemble c = [.issue (.request ⟨0x09, 0, 0, 0, 0, d⟩)] ∧
    (AsmLine.decRsp d).assemble c = [.issue (.request ⟨0x0A, 0, 0, 0, 0, d⟩)] ∧
    (AsmLine.stMap b).assemble c = [.issue (.request ⟨0x0B, b, 0, 0, 0, ⟨[], by decide⟩⟩)]

/-! ### Steps, reset, runs -/

/-- A step performs the oldest event on the state without it; with no event it leaves the state; and when that
event is something that decodes to an instruction, the step is `exec` of the instruction. The event list is the
model's (log entry 4). -/
def Obligations.StepRunsDecodedInstruction : Prop :=
  (∀ (s : State) (e : Event) (rest : List Event),
    s.events = e :: rest → step s = perform e { s with events := rest }) ∧
  (∀ s : State, s.events = [] → step s = .next s) ∧
  (∀ (s : State) (w : Encoded) (rest : List Event) (i : Instr),
    s.events = .issue w :: rest → decode s.cfg w = .ok i →
    step s = exec i { s with events := rest })

/-- A table word placed by `withFetchWord` is run by the very next step, whatever the state and the parameters
(log entries 4 and 6). -/
def Obligations.PlacedWordRunsNext : Prop :=
  ∀ (s : State) (nbits w : Nat) (i : Instr),
    decodeTableWord nbits w = some i → step (s.withFetchWord nbits w) = exec i s

/-- R110: a reset writes every piece of state and does not touch the parameters; after it the block is ready
for any operation at once. -/
def Obligations.ResetWritesEveryRegister : Prop :=
  ∀ s : State, ∃ t,
    perform .reset s = .next t ∧
    t = { cfg := s.cfg, acc := 0x0000, events := s.events,
          res := { kind := .none, status := 0x00, reason := .none, val := 0x0000, opc := 0x00,
                   p1 := 0x00, p2_0 := 0x00, p2_1 := 0x00, len := 0, out := [] } } ∧
    ∀ w : Encoded, ∃ u, perform (.issue w) t = .next u ∧ u.res.kind ≠ .none

/-- R25: the values after reset. -/
def Obligations.ResetValues : Prop :=
  State.reset.acc = 0x0000 ∧ State.reset.res.kind.code = 0 ∧ State.reset.res.status = 0x00 ∧
  State.reset.res.reason.code = 0 ∧ State.reset.res.val = 0x0000 ∧ State.reset.res.opc = 0x00 ∧
  State.reset.res.p1 = 0x00 ∧ State.reset.res.p2_0 = 0x00 ∧ State.reset.res.p2_1 = 0x00 ∧
  State.reset.res.len = 0 ∧ State.reset.res.out = []

/-- R102, R119: a step always answers a next state, and whatever is issued gets a result. With no event issued
the step leaves the state (the model's choice, log entry 4). -/
def Obligations.EveryStepAnswers : Prop :=
  (∀ s : State, ∃ t, step s = .next t) ∧
  (∀ (s : State) (w : Encoded) (rest : List Event), s.events = .issue w :: rest →
    ∃ t, step s = .next t ∧ t.events = rest ∧ t.res.kind ≠ .none)

/-- R126: the steps of the machine on a list of events are the events performed in order. -/
def Obligations.RunPerformsEventsInOrder : Prop :=
  ∀ (es : List Event) (s : State), ∃ t,
    performAll es { s with events := [] } = .next t ∧
    Host.Core.run core es.length { s with events := es } = .next t

/-- R126: two instances with the same parameters, reset and given the same events, show the same sequence of
result records, one for each thing issued, whatever they held before. -/
def Obligations.SameEventsSameResults : Prop :=
  ∀ (es : List Event) (s t : State), s.cfg = t.cfg →
    trace (.reset :: es) s = trace (.reset :: es) t ∧
    (trace (.reset :: es) s).length = (es.filter (fun e => decide (e ≠ .reset))).length

/-- A status byte or a sequence handed to the block does exactly what the request `ST.MAP`, `DEC.CMD` or
`DEC.RSP` with that operand does (log entry 5). -/
def Obligations.WireItemsAreRequests : Prop :=
  ∀ (w : Encoded) (s : State), perform (.issue w) s = perform (.issue (.request w.asRequest)) s

/-! ### The CRC unit -/

/-- R63; it is the same as `CRC.SEED` of zero. -/
def Obligations.CrcClrResult : Prop :=
  ∀ s : State, exec .crcClr s =
      .next { s with acc := 0x0000, res := { Result.reset with kind := .success, val := 0x0000 } } ∧
    exec .crcClr s = exec (.crcSeed 0x00 0x00) s

/-- R64. -/
def Obligations.CrcSeedResult : Prop :=
  ∀ (s : State) (c0 c1 : Byte), exec (.crcSeed c0 c1) s =
    .next { s with acc := c0.zeroExtend 16 ||| (c1.zeroExtend 16 <<< 8)
                   res := { Result.reset with kind := .success
                                              val := c0.zeroExtend 16 ||| (c1.zeroExtend 16 <<< 8) } }

/-- R65; `CRC.BYTE b` is the same as `CRC.BUF` of the one byte. -/
def Obligations.CrcByteResult : Prop :=
  ∀ (s : State) (b : Byte), exec (.crcByte b) s =
      .next { s with acc := s.cfg.crcStep s.acc b
                     res := { Result.reset with kind := .success, val := s.cfg.crcStep s.acc b } } ∧
    exec (.crcByte b) s = exec (.crcBuf [b]) s

/-- R66: the bytes are folded in index order from the current `ACC`; no bytes leave it unchanged; two buffers
in a row leave what their join leaves. -/
def Obligations.CrcBufResult : Prop :=
  ∀ (s : State) (d : Bytes), exec (.crcBuf d) s =
      .next { s with acc := d.foldl s.cfg.crcStep s.acc
                     res := { Result.reset with kind := .success, val := d.foldl s.cfg.crcStep s.acc } } ∧
    (d = [] → ∃ t, exec (.crcBuf d) s = .next t ∧ t.acc = s.acc) ∧
    (∀ d' : Bytes, ∃ t, exec (.crcBuf d) s = .next t ∧ exec (.crcBuf d') t = exec (.crcBuf (d ++ d')) s)

/-- R67. -/
def Obligations.CrcRdResult : Prop :=
  ∀ s : State, exec .crcRd s = .next { s with res := { Result.reset with kind := .success, val := s.acc } }

/-- R59: the chaining law for two pieces and for any number of pieces, under every `CRC_STEP`; out of order it
does not hold (V-C22). -/
def Obligations.ChainingLaw : Prop :=
  (∀ (f : Word → Byte → Word) (A B : Bytes) (seed : Word),
    crc16 f (A ++ B) seed = crc16 f B (crc16 f A seed)) ∧
  (∀ (f : Word → Byte → Word) (ps : List Bytes) (seed : Word),
    ps.foldl (fun acc p => crc16 f p acc) seed = crc16 f ps.flatten seed) ∧
  (∃ A B : Bytes, crc16 crcStepR62 (B ++ A) 0 ≠ crc16 crcStepR62 (A ++ B) 0)

/-- R68 (b), (c), (d): the default `CRC_STEP` is linear over exclusive-or, does not see leading zero bytes of
a fresh computation, is a bijection of the accumulator for every byte and injective in the byte. -/
def Obligations.DefaultStepLaws : Prop :=
  (∀ (a a' : Word) (b b' : Byte),
    crcStepR62 (a ^^^ a') (b ^^^ b') = crcStepR62 a b ^^^ crcStepR62 a' b') ∧
  (∀ (n : Nat) (s : Bytes), crc16 crcStepR62 (List.replicate n 0x00 ++ s) 0 = crc16 crcStepR62 s 0) ∧
  (∀ b : Byte, Function.Bijective (fun a => crcStepR62 a b)) ∧
  PAccInj crcStepR62 ∧ PByteInj crcStepR62 ∧ PBitInj crcStepR62

/-- R113, R117, R73: in a run of `CRC.BUF` pieces with anything in between that is no `CRC.CLR`, `CRC.SEED` or
`CRC.BYTE`, `ACC` ends as the CRC of the pieces joined in order. -/
def Obligations.ChainSurvivesFraming : Prop :=
  ∀ (ws : List Encoded) (s : State),
    (∀ r : Request, .request r ∈ ws → r.opsel ∉ [0x00, 0x01, 0x02]) →
    ∃ t, performAll (ws.map .issue) s = .next t ∧
      t.acc = crc16 s.cfg.crcStep
        (ws.flatMap (fun w => match w with
          | .request r => if r.opsel = 0x03 then r.data.bytes else []
          | _ => [])) s.acc

/-- R55 (a): `CRC16` leaves `crc16(bytes, seed)` in `ACC` and in `RES.VAL`, for a buffer of any length, in
requests of at most 255 bytes; how a longer buffer is cut is the model's choice (log entry 15). -/
def Obligations.Crc16PseudoOperation : Prop :=
  ∀ (s : State) (bytes : Bytes) (seed : Word),
    (∃ t, performAll ((AsmLine.crc16 bytes seed).assemble s.cfg) s = .next t ∧
      t.acc = crc16 s.cfg.crcStep bytes seed ∧
      t.res = { Result.reset with kind := .success, val := crc16 s.cfg.crcStep bytes seed }) ∧
    (∀ p ∈ pieces bytes, p.length ≤ 255) ∧ (bytes.length ≤ 255 → pieces bytes = [bytes])

/-! ### The frame encoder -/

/-- R71: an accepted payload gives the frame, seed 0, low CRC byte first. -/
def Obligations.EncCmdBuildsFrame : Prop :=
  ∀ (s : State) (op p1 q0 q1 : Byte) (d : Bytes),
    d.length ≤ s.cfg.maxPayload.val → (s.cfg.opsize op).1 ≤ d.length → d.length ≤ (s.cfg.opsize op).2 →
    exec (.encCmd op p1 q0 q1 d) s =
      .next { s with
        res := { Result.reset with
          kind := .success
          len := BitVec.ofNat 8 (7 + d.length)
          out :=
            let body := [BitVec.ofNat 8 (7 + d.length), op, p1, q0, q1] ++ d
            let c := crc16 s.cfg.crcStep body 0x0000
            body ++ [c.extractLsb 7 0, c.extractLsb 15 8] } }

/-- R70: a length above `MAX_PAYLOAD` or outside `OPSIZE` is refused and no frame exists; nothing else is.
R74 (c), with the bound of R8: whatever the parameters, 249 bytes or more are refused. -/
def Obligations.EncCmdRefusesLength : Prop :=
  (∀ (s : State) (op p1 q0 q1 : Byte) (d : Bytes),
    s.cfg.maxPayload.val < d.length ∨ d.length < (s.cfg.opsize op).1 ∨ (s.cfg.opsize op).2 < d.length →
    exec (.encCmd op p1 q0 q1 d) s =
      .next { s with res := { Result.reset with kind := .parameterError, status := 0x99 } }) ∧
  (∀ (s : State) (op p1 q0 q1 : Byte) (d : Bytes),
    ¬ (s.cfg.maxPayload.val < d.length ∨ d.length < (s.cfg.opsize op).1 ∨ (s.cfg.opsize op).2 < d.length) →
    ∃ t, exec (.encCmd op p1 q0 q1 d) s = .next t ∧ t.res.kind = .success ∧
      t.res.out.length = 7 + d.length) ∧
  (∀ (s : State) (op p1 q0 q1 : Byte) (d : Bytes), 249 ≤ d.length →
    exec (.encCmd op p1 q0 q1 d) s =
      .next { s with res := { Result.reset with kind := .parameterError, status := 0x99 } })

/-- R72: the fields of the frame by index, and `DEC.CMD` of it returns them. -/
def Obligations.EncCmdFrameFields : Prop :=
  ∀ (s t : State) (op p1 q0 q1 : Byte) (d : Bytes),
    exec (.encCmd op p1 q0 q1 d) s = .next t → t.res.kind = .success →
    t.res.out.length = 7 + d.length ∧ (byteAt t.res.out 0).toNat = 7 + d.length ∧
    byteAt t.res.out 1 = op ∧ byteAt t.res.out 2 = p1 ∧ byteAt t.res.out 3 = q0 ∧ byteAt t.res.out 4 = q1 ∧
    (∀ i, i < d.length → byteAt t.res.out (5 + i) = byteAt d i) ∧
    (byteAt t.res.out (5 + d.length)).zeroExtend 16
        ||| ((byteAt t.res.out (6 + d.length)).zeroExtend 16 <<< 8)
      = crc16 s.cfg.crcStep (t.res.out.take (5 + d.length)) 0 ∧
    exec (.decCmd t.res.out) s =
      .next { s with res := { Result.reset with
        kind := .success, opc := op, p1 := p1, p2_0 := q0, p2_1 := q1
        len := BitVec.ofNat 8 d.length, out := d } }

/-! ### The frame decoder -/

/-- R76, R77: the check reports the first fault in the order Empty, BadCount, Short, Long, CrcMismatch, and
`None` exactly for a sequence whose length is its count, at least the minimum, and whose last two bytes are
the CRC of the rest, low byte first. -/
def Obligations.FrameCheckFirstFault : Prop :=
  ∀ (f : Word → Byte → Word) (s : Bytes) (min : Nat), min = 7 ∨ min = 3 →
    let n := s.length
    let count := (byteAt s 0).toNat
    let c := crc16 f (s.take (n - 2)) 0x0000
    let crcOk := byteAt s (n - 2) = c.extractLsb 7 0 ∧ byteAt s (n - 1) = c.extractLsb 15 8
    (frameCheck f s min = .empty ↔ n = 0) ∧
    (frameCheck f s min = .badCount ↔ n ≠ 0 ∧ count < min) ∧
    (frameCheck f s min = .short ↔ n ≠ 0 ∧ min ≤ count ∧ n < count) ∧
    (frameCheck f s min = .long ↔ min ≤ count ∧ count < n) ∧
    (frameCheck f s min = .crcMismatch ↔ min ≤ count ∧ n = count ∧ ¬ crcOk) ∧
    (frameCheck f s min = .none ↔ min ≤ count ∧ n = count ∧ crcOk)

/-- R79: a sound command frame delivers its fields; anything else gives CommunicationError with the reason of
the check and delivers nothing. -/
def Obligations.DecCmdResult : Prop :=
  ∀ (s : State) (d : Bytes),
    (frameCheck s.cfg.crcStep d 7 = .none →
      exec (.decCmd d) s = .next { s with res := { Result.reset with
        kind := .success, opc := byteAt d 1, p1 := byteAt d 2, p2_0 := byteAt d 3, p2_1 := byteAt d 4
        len := BitVec.ofNat 8 ((byteAt d 0).toNat - 7)
        out := (d.drop 5).take ((byteAt d 0).toNat - 7) } }) ∧
    (frameCheck s.cfg.crcStep d 7 ≠ .none →
      exec (.decCmd d) s = .next { s with res := { Result.reset with
        kind := .communicationError, reason := frameCheck s.cfg.crcStep d 7, status := 0x00 } } ∧
      frameCheck s.cfg.crcStep d 7 ≠ .unmappedStatus)

/-- R81: what `ENC.CMD` builds `DEC.CMD` takes apart, and conversely, under every `CRC_STEP`. -/
def Obligations.EncodeDecodeRoundTrip : Prop :=
  (∀ (s t : State) (op p1 q0 q1 : Byte) (d : Bytes),
    exec (.encCmd op p1 q0 q1 d) s = .next t → t.res.kind = .success →
    ∃ u, exec (.decCmd t.res.out) t = .next u ∧ u.res.kind = .success ∧ u.res.opc = op ∧ u.res.p1 = p1 ∧
      u.res.p2_0 = q0 ∧ u.res.p2_1 = q1 ∧ u.res.out = d) ∧
  (∀ (s t : State) (d : Bytes),
    exec (.decCmd d) s = .next t → t.res.kind = .success →
    t.res.out.length ≤ s.cfg.maxPayload.val → (s.cfg.opsize t.res.opc).1 ≤ t.res.out.length →
    t.res.out.length ≤ (s.cfg.opsize t.res.opc).2 →
    ∃ u, exec (.encCmd t.res.opc t.res.p1 t.res.p2_0 t.res.p2_1 t.res.out) t = .next u ∧
      u.res.kind = .success ∧ u.res.out = d)

/-- R82: a single inverted bit of a sound frame is always found, when `CRC_STEP` has `P_ACC_INJ` and
`P_BIT_INJ`; under the default one so is any change of one whole byte, and a change of two bytes need not be.
A flip in `count` is never a CrcMismatch, a flip elsewhere always is. -/
def Obligations.SingleBitFlipDetected : Prop :=
  (∀ (f : Word → Byte → Word), PAccInj f → PBitInj f →
    ∀ (s : Bytes) (min i : Nat) (k : Fin 8), min = 7 ∨ min = 3 → frameCheck f s min = .none → i < s.length →
      (i = 0 → frameCheck f (flipBitAt s i k) min ∈ [.badCount, .short, .long]) ∧
      (i ≠ 0 → frameCheck f (flipBitAt s i k) min = .crcMismatch)) ∧
  (∀ (s : Bytes) (min i : Nat) (b : Byte), min = 7 ∨ min = 3 → frameCheck crcStepR62 s min = .none →
    i < s.length → b ≠ byteAt s i → frameCheck crcStepR62 (s.set i b) min ≠ .none) ∧
  (∃ (s : Bytes) (i j : Nat) (b b' : Byte), i < s.length ∧ j < s.length ∧ i ≠ j ∧ b ≠ byteAt s i ∧
    b' ≠ byteAt s j ∧ frameCheck crcStepR62 s 3 = .none ∧
    frameCheck crcStepR62 ((s.set i b).set j b') 3 = .none)

/-- R82 at the machine: after a single inverted bit of a sound frame `DEC.CMD` and the framed path of
`DEC.RSP` report CommunicationError and deliver nothing, under the default `CRC_STEP` and under every other one
that has `P_ACC_INJ` and `P_BIT_INJ`. -/
def Obligations.CorruptedFrameNotDelivered : Prop :=
  ∀ (s : State) (d : Bytes) (i : Nat) (k : Fin 8),
    s.cfg.crc = .r62 ∨ (PAccInj s.cfg.crcStep ∧ PBitInj s.cfg.crcStep) → i < d.length →
    (frameCheck s.cfg.crcStep d 7 = .none → ∃ r, r ≠ .none ∧ exec (.decCmd (flipBitAt d i k)) s =
      .next { s with res := { Result.reset with kind := .communicationError, reason := r } }) ∧
    (frameCheck s.cfg.crcStep d 3 = .none → ∃ r, r ≠ .none ∧ exec (.decRsp (flipBitAt d i k)) s =
      .next { s with res := { Result.reset with kind := .communicationError, reason := r } })

/-- R84: the bare form. A listed byte gives its kind with no output; an unlisted one `UnmappedStatus` with the
raw byte. -/
def Obligations.DecRspBareStatus : Prop :=
  ∀ (s : State) (b : Byte),
    (∀ code : StatusCode, b = code.byte → exec (.decRsp [b]) s =
      .next { s with res := { Result.reset with kind := kindOf code, status := code.byte } }) ∧
    (b ∉ [0x00, 0x01, 0x0F, 0x11, 0x98, 0x99] → exec (.decRsp [b]) s =
      .next { s with res := { Result.reset with
        kind := .communicationError, reason := .unmappedStatus, status := b } })

/-- R85: the framed form under both values of `FRAMED_STATUS`. -/
def Obligations.DecRspFramed : Prop :=
  ∀ (s : State) (d : Bytes), frameCheck s.cfg.crcStep d 3 = .none →
    ((s.cfg.framedStatus = false ∨ (byteAt d 0).toNat ≠ 4) → exec (.decRsp d) s =
      .next { s with res := { Result.reset with
        kind := .success, len := BitVec.ofNat 8 ((byteAt d 0).toNat - 3)
        out := (d.drop 1).take ((byteAt d 0).toNat - 3) } }) ∧
    (s.cfg.framedStatus = true → (byteAt d 0).toNat = 4 →
      (∀ code : StatusCode, byteAt d 1 = code.byte → exec (.decRsp d) s =
        .next { s with res := { Result.reset with
          kind := kindOf code, status := code.byte, len := 1, out := [code.byte] } }) ∧
      (byteAt d 1 ∉ [0x00, 0x01, 0x0F, 0x11, 0x98, 0x99] → exec (.decRsp d) s =
        .next { s with res := { Result.reset with
          kind := .communicationError, reason := .unmappedStatus, status := byteAt d 1 } }))

/-- R83, R86: a reception that is not one byte and no sound frame gives CommunicationError with the reason of
the check, and not one received byte is passed on. -/
def Obligations.DecRspReportsFault : Prop :=
  ∀ (s : State) (d : Bytes), d.length ≠ 1 → frameCheck s.cfg.crcStep d 3 ≠ .none →
    exec (.decRsp d) s = .next { s with res := { Result.reset with
      kind := .communicationError, reason := frameCheck s.cfg.crcStep d 3 } }

/-- R86: whatever is issued, if `DEC.RSP` or `DEC.CMD` leaves bytes in `OUT` then the sequence was sound, the
bytes are those after its header, and a payload has at most 252 bytes. -/
def Obligations.PayloadOnlyAfterSoundCrc : Prop :=
  (∀ (s t : State) (d : Bytes), exec (.decRsp d) s = .next t → t.res.out ≠ [] →
    frameCheck s.cfg.crcStep d 3 = .none ∧ t.res.out = (d.drop 1).take (d.length - 3) ∧
    t.res.out.length ≤ 252) ∧
  (∀ (s t : State) (d : Bytes), exec (.decCmd d) s = .next t → t.res.out ≠ [] →
    frameCheck s.cfg.crcStep d 7 = .none ∧ t.res.out = (d.drop 5).take (d.length - 7) ∧
    t.res.out.length ≤ 248)

/-! ### The status mapper, the status codes and the wire formats -/

/-- R91, R92, R93: `ST.MAP` on each listed byte and on every unlisted one. -/
def Obligations.StMapResult : Prop :=
  ∀ s : State,
    exec (.stMap 0x00) s = .next { s with res := { Result.reset with kind := .success, status := 0x00 } } ∧
    exec (.stMap 0x01) s =
      .next { s with res := { Result.reset with kind := .authenticationFailure, status := 0x01 } } ∧
    exec (.stMap 0x0F) s =
      .next { s with res := { Result.reset with kind := .deviceExecError, status := 0x0F } } ∧
    exec (.stMap 0x11) s = .next { s with res := { Result.reset with kind := .success, status := 0x11 } } ∧
    exec (.stMap 0x98) s =
      .next { s with res := { Result.reset with kind := .parameterError, status := 0x98 } } ∧
    exec (.stMap 0x99) s =
      .next { s with res := { Result.reset with kind := .parameterError, status := 0x99 } } ∧
    (∀ b : Byte, b ∉ [0x00, 0x01, 0x0F, 0x11, 0x98, 0x99] → exec (.stMap b) s =
      .next { s with res := { Result.reset with
        kind := .communicationError, reason := .unmappedStatus, status := b } })

/-- The kind of each status code (R91) when its byte is handed to the block, as the model takes the table's
status rows (log entry 5). -/
def Obligations.StatusCodeKinds : Prop :=
  ∀ s : State,
    exec .statusOk s = .next { s with res := { Result.reset with kind := .success, status := 0x00 } } ∧
    exec .statusCheckMacFail s =
      .next { s with res := { Result.reset with kind := .authenticationFailure, status := 0x01 } } ∧
    exec .statusExecError s =
      .next { s with res := { Result.reset with kind := .deviceExecError, status := 0x0F } } ∧
    exec .statusReady s = .next { s with res := { Result.reset with kind := .success, status := 0x11 } } ∧
    exec .statusPaddingError s =
      .next { s with res := { Result.reset with kind := .parameterError, status := 0x98 } } ∧
    exec .statusBadParameters s =
      .next { s with res := { Result.reset with kind := .parameterError, status := 0x99 } }

/-- A command frame handed to the block delivers its fields; it is `DEC.CMD` of the frame's bytes, for every
payload a frame can have (R79; log entry 5). -/
def Obligations.FrameCmdDelivers : Prop :=
  ∀ (s : State) (op p1 q0 q1 : Byte) (d : Bytes), d.length ≤ 248 →
    exec (.frameCmd op p1 q0 q1 d) s = .next { s with res := { Result.reset with
      kind := .success, opc := op, p1 := p1, p2_0 := q0, p2_1 := q1
      len := BitVec.ofNat 8 d.length, out := d } } ∧
    exec (.frameCmd op p1 q0 q1 d) s = exec (.decCmd (commandFrame s.cfg.crcStep op p1 q0 q1 d)) s

/-- A framed response handed to the block delivers its data, or under `FRAMED_STATUS` its one byte as a status;
it is `DEC.RSP` of the frame's bytes (R85; log entry 5). -/
def Obligations.FrameRspDelivers : Prop :=
  ∀ (s : State) (d : Bytes), d.length ≤ 252 →
    (s.cfg.framedStatus = false ∨ d.length ≠ 1 → exec (.frameRsp d) s =
      .next { s with res := { Result.reset with
        kind := .success, len := BitVec.ofNat 8 d.length, out := d } }) ∧
    (∀ b, s.cfg.framedStatus = true → d = [b] →
      (∀ code, outcomeOf b = some code → exec (.frameRsp d) s =
        .next { s with res := { Result.reset with kind := kindOf code, status := b, len := 1, out := d } }) ∧
      (outcomeOf b = none → exec (.frameRsp d) s =
        .next { s with res := { Result.reset with
          kind := .communicationError, reason := .unmappedStatus, status := b } })) ∧
    exec (.frameRsp d) s = exec (.decRsp (responseFrame s.cfg.crcStep d)) s

/-- A bare status response does what the status mapper does with its byte, whatever the byte (V-S9, R84). -/
def Obligations.BareStatusIsMapped : Prop :=
  ∀ (s : State) (b : Byte),
    (∀ code, outcomeOf b = some code → exec (.frameStatus b) s =
      .next { s with res := { Result.reset with kind := kindOf code, status := b } }) ∧
    (outcomeOf b = none → exec (.frameStatus b) s =
      .next { s with res := { Result.reset with
        kind := .communicationError, reason := .unmappedStatus, status := b } }) ∧
    exec (.stMap b) s = exec (.frameStatus b) s ∧ exec (.decRsp [b]) s = exec (.frameStatus b) s

/-- R94, R88: whatever is issued, AuthenticationFailure is reported exactly with status 0x01, and
CommunicationError with a reason and nothing else; and a listed byte handed to the mapper, by itself, by
`ST.MAP` or as a reception of one byte, gives its kind and never CommunicationError. -/
def Obligations.CheckMacFailKeptApart : Prop :=
  (∀ (s t : State) (w : Encoded), perform (.issue w) s = .next t →
    (t.res.kind = .authenticationFailure ↔ t.res.status = 0x01)) ∧
  (∀ (s t : State) (w : Encoded), perform (.issue w) s = .next t →
    (t.res.kind = .communicationError ↔ t.res.reason ≠ .none) ∧
    (t.res.reason = .unmappedStatus → outcomeOf t.res.status = none) ∧
    (t.res.kind ≠ .communicationError → ∃ code, outcomeOf t.res.status = some code ∧ t.res.kind = kindOf code)) ∧
  (∀ (s : State) (w : Encoded) (b : Byte) (code : StatusCode), b = code.byte →
    (w = .status b ∨ (∃ f : ByteSeq, w = .response f ∧ f.bytes = [b]) ∨
      (∃ r : Request, w = .request r ∧ r.opsel = 0x0B ∧ r.a = b) ∨
      (∃ r : Request, w = .request r ∧ r.opsel = 0x0A ∧ r.data.bytes = [b])) →
    ∃ t, perform (.issue w) s = .next t ∧ t.res.kind = kindOf code ∧ t.res.status = b ∧
      t.res.kind ≠ .communicationError)

/-- R97: which operation reports what, and when, row by row; what an error records is nothing else. -/
def Obligations.ErrorsByOperation : Prop :=
  ∀ (s : State) (a b c0 c1 : Byte) (d : Bytes),
    (∀ i ∈ [Instr.crcClr, .crcSeed c0 c1, .crcByte a, .crcBuf d, .crcRd],
      ∃ t, exec i s = .next t ∧ t.res.kind = .success) ∧
    (∃ t, exec (.encCmd a b c0 c1 d) s = .next t ∧
      (t.res.kind = .success ∨
        t.res.kind = .parameterError ∧ t.res.status = 0x99 ∧ t.res.RecordsNothingElse) ∧
      (t.res.kind = .parameterError ↔
        s.cfg.maxPayload.val < d.length ∨ d.length < (s.cfg.opsize a).1 ∨ (s.cfg.opsize a).2 < d.length)) ∧
    (∃ t, exec (.decCmd d) s = .next t ∧
      (t.res.kind = .success ∨ t.res.kind = .communicationError ∧ t.res.RecordsNothingElse) ∧
      (t.res.kind = .communicationError ↔ frameCheck s.cfg.crcStep d 7 ≠ .none) ∧
      t.res.reason = frameCheck s.cfg.crcStep d 7 ∧ t.res.reason ≠ .unmappedStatus) ∧
    (∃ t, exec (.decRsp d) s = .next t ∧
      (t.res.reason ∈ [.empty, .badCount, .short, .long, .crcMismatch] ↔
        d.length ≠ 1 ∧ frameCheck s.cfg.crcStep d 3 ≠ .none) ∧
      (t.res.kind = .communicationError ↔ t.res.reason ≠ .none) ∧
      (t.res.kind = .communicationError → t.res.RecordsNothingElse) ∧
      t.res.ReportsStatus (StatusReceived s.cfg d)) ∧
    (∃ t, exec (.stMap a) s = .next t ∧ t.res.reason ∈ [.none, .unmappedStatus] ∧
      (t.res.kind = .communicationError ↔ t.res.reason ≠ .none) ∧ t.res.RecordsNothingElse ∧
      t.res.ReportsStatus (fun x => x = a)) ∧
    (∀ r : Request, r.opsel ∉ [0x00, 0x01, 0x02, 0x03, 0x04, 0x08, 0x09, 0x0A, 0x0B] →
      ∃ t, perform (.issue (.request r)) s = .next t ∧ t.res.kind = .parameterError ∧ t.res.status = 0x99 ∧
        t.res.RecordsNothingElse)

/-! ### What is left unchanged; invariants -/

/-- R15: `ACC` is written by `CRC.CLR`, `CRC.SEED`, `CRC.BYTE` and `CRC.BUF` only, and read by `CRC.RD` and
those that go on from it; the encoder, the decoder, the mapper and a reserved operation do not read it either,
whether they succeed or fail. -/
def Obligations.AccWrittenByFourOperations : Prop :=
  (∀ (s t : State) (w : Encoded), perform (.issue w) s = .next t → t.acc ≠ s.acc →
    ∃ r : Request, w = .request r ∧ r.opsel ∈ [0x00, 0x01, 0x02, 0x03]) ∧
  (∀ (s : State) (w : Encoded) (a : Word),
    (∀ r : Request, w = .request r → r.opsel ∉ [0x00, 0x01, 0x02, 0x03, 0x04]) →
    ∃ t, perform (.issue w) s = .next t ∧ t.acc = s.acc ∧
      perform (.issue w) { s with acc := a } = .next { t with acc := a }) ∧
  (∀ (s : State) (c0 c1 a : Byte) (d : Bytes),
    (∃ t, exec .crcClr s = .next t ∧ t.acc = 0x0000) ∧
    (∃ t, exec (.crcSeed c0 c1) s = .next t ∧ t.acc = (c0.zeroExtend 16 ||| (c1.zeroExtend 16 <<< 8))) ∧
    (∃ t, exec (.crcByte a) s = .next t ∧ t.acc = s.cfg.crcStep s.acc a) ∧
    (∃ t, exec (.crcBuf d) s = .next t ∧ t.acc = d.foldl s.cfg.crcStep s.acc) ∧
    (∃ t, exec .crcRd s = .next t ∧ t.acc = s.acc ∧ t.res.val = s.acc))

/-- The frame of every instruction: the parameters and the events stay, `ACC` stays unless the instruction is
one of the four that write it, and only the five of the CRC unit write `RES.VAL` other than 0 (R15, R17). -/
def Obligations.InstructionFrame : Prop :=
  ∀ (i : Instr) (s t : State), exec i s = .next t →
    t.cfg = s.cfg ∧ t.events = s.events ∧
    (t.acc = s.acc ∨ i = .crcClr ∨ (∃ c0 c1, i = .crcSeed c0 c1) ∨ (∃ a, i = .crcByte a) ∨
      (∃ d, i = .crcBuf d)) ∧
    ((t.res.val = 0 ∧ t.acc = s.acc) ∨
      ((i = .crcClr ∨ (∃ c0 c1, i = .crcSeed c0 c1) ∨ (∃ a, i = .crcByte a) ∨ (∃ d, i = .crcBuf d) ∨
          i = .crcRd) ∧
        t.res.val = t.acc ∧ t.res.kind = .success ∧ t.res.status = 0x00 ∧ t.res.opc = 0 ∧ t.res.p1 = 0 ∧
        t.res.p2_0 = 0 ∧ t.res.p2_1 = 0 ∧ t.res.out = []))

/-- The parameters are fixed for the life of an instance: no step changes them, and an event performed is
gone while those after it stay (00_scope.md section 5; R24; log entry 1). -/
def Obligations.ParametersNeverChange : Prop :=
  ∀ s t : State, step s = .next t → t.cfg = s.cfg ∧ t.events = s.events.tail

/-- R23, R26, R17: no operation reads `RES`, and whatever is issued writes all of it. So an earlier result or
error changes nothing of what a later operation does. -/
def Obligations.OldResultIrrelevant : Prop :=
  ∀ (s : State) (old : Result) (w : Encoded) (rest : List Event), s.events = .issue w :: rest →
    step { s with res := old } = step s

/-- R34: repeating any request that is no `CRC.BYTE` or `CRC.BUF` changes nothing more; repeating one of these
feeds its bytes again, and so some `CRC.BYTE` and some `CRC.BUF` are not idempotent. -/
def Obligations.RepeatingRequestIsIdempotent : Prop :=
  (∀ (s t : State) (w : Encoded), (∀ r : Request, w = .request r → r.opsel ∉ [0x02, 0x03]) →
    perform (.issue w) s = .next t → perform (.issue w) t = .next t) ∧
  (∀ (s : State) (r : Request), r.opsel = 0x02 → ∃ t u, perform (.issue (.request r)) s = .next t ∧
    perform (.issue (.request r)) t = .next u ∧ u.acc = s.cfg.crcStep (s.cfg.crcStep s.acc r.a) r.a) ∧
  (∀ (s : State) (r : Request), r.opsel = 0x03 → ∃ t u, perform (.issue (.request r)) s = .next t ∧
    perform (.issue (.request r)) t = .next u ∧
    u.acc = crc16 s.cfg.crcStep (r.data.bytes ++ r.data.bytes) s.acc) ∧
  (∃ (s t u : State) (r : Request), r.opsel = 0x02 ∧ perform (.issue (.request r)) s = .next t ∧
    perform (.issue (.request r)) t = .next u ∧ u ≠ t) ∧
  (∃ (s t u : State) (r : Request), r.opsel = 0x03 ∧ perform (.issue (.request r)) s = .next t ∧
    perform (.issue (.request r)) t = .next u ∧ u ≠ t)

/-- Every step keeps the invariant: the result record is one the block can hold, and `RES.VAL` is 0 or `ACC`
(R17 to R20, R96). -/
def Obligations.StepKeepsInvariant : Prop :=
  ∀ s t : State, s.inv = true → step s = .next t → t.inv = true

/-- The invariant holds after reset. -/
def Obligations.ResetHasInvariant : Prop := State.reset.inv = true

/-- Every result record the block writes is one it can hold, whatever record stood there before (R17). -/
def Obligations.EveryResultIsSound : Prop :=
  ∀ (s t : State) (w : Encoded), perform (.issue w) s = .next t →
    t.res.sound = true ∧ t.res.len.toNat = t.res.out.length ∧ t.res.kind ≠ .none

/-- Every `OPSIZE` with `lo <= hi` is the `OPSIZE` of some list of rows, under every `MAX_PAYLOAD` (R9; log
entry 3). -/
def Obligations.EveryOpsizeHasRows : Prop :=
  ∀ f : Byte → Nat × Nat, (∀ op, (f op).1 ≤ (f op).2) →
    ∃ rows : List OpsizeRow, ∀ (c : Config) (op : Byte), ({ c with opsizes := rows } : Config).opsize op = f op

/-- R55 (b): `EXECUTE`. When the encoder refuses, the result is its ParameterError and no transport call is
made; else the transport is given the frame and the result is that of `DEC.RSP` of the bytes received, or of
no bytes when it fails (log entry 12). -/
def Obligations.ExecuteProcedure : Prop :=
  ∀ (s : State) (op p1 q0 q1 : Byte) (d : ByteSeq) (transport : Bytes → Option ByteSeq),
    (s.cfg.accepts op d.bytes.length = false →
      execute transport op p1 q0 q1 d s =
        .next { s with res := { Result.reset with kind := .parameterError, status := 0x99 } }) ∧
    (s.cfg.accepts op d.bytes.length = true →
      (∀ received, transport (commandFrame s.cfg.crcStep op p1 q0 q1 d.bytes) = some received →
        execute transport op p1 q0 q1 d s = exec (.decRsp received.bytes) s) ∧
      (transport (commandFrame s.cfg.crcStep op p1 q0 q1 d.bytes) = none →
        execute transport op p1 q0 q1 d s =
          .next { s with res := { Result.reset with kind := .communicationError, reason := .empty } }))
end

