-- ==== Sys2Proof/Laws/Crc.lean ====
section
/-! SUPPORT. Bytes and words, `crc16` as a fold, and what one byte difference does to it. -/

namespace Sys2Proof

@[simp] theorem crc16_nil (f : Word → Byte → Word) (seed : Word) : crc16 f [] seed = seed := rfl

@[simp] theorem crc16_cons (f : Word → Byte → Word) (b : Byte) (s : Bytes) (seed : Word) :
    crc16 f (b :: s) seed = crc16 f s (f seed b) := rfl

/-- The fold over joined sequences (40_crc.md R59, two pieces). -/
theorem crc16_append (f : Word → Byte → Word) (s t : Bytes) (seed : Word) :
    crc16 f (s ++ t) seed = crc16 f t (crc16 f s seed) := by
  simp [crc16]

/-- Feeding bytes keeps two accumulators apart (from `P_ACC_INJ`). -/
theorem crc16_seed_ne {f : Word → Byte → Word} (hf : PAccInj f) (s : Bytes) {a a' : Word} (h : a ≠ a') :
    crc16 f s a ≠ crc16 f s a' := by
  induction s generalizing a a' with
  | nil => exact h
  | cons b s ih => exact ih (hf b a a' h)

/-- Sequences that differ in one byte, at which the step tells the bytes apart, have different CRCs. -/
theorem crc16_set_ne {f : Word → Byte → Word} (hf : PAccInj f) {s : Bytes} {i : Nat} {b : Byte}
    (hi : i < s.length) (hb : ∀ a, f a (byteAt s i) ≠ f a b) (seed : Word) :
    crc16 f (s.set i b) seed ≠ crc16 f s seed := by
  induction s generalizing i seed with
  | nil => simp at hi
  | cons x s ih =>
    cases i with
    | zero => exact crc16_seed_ne hf s (hb seed).symm
    | succ i => exact ih (by simpa using hi) (by simpa [byteAt] using hb) (f seed x)

/-- The seed's two bytes joined are the seed. -/
theorem joinBytes_split (v : Word) : joinBytes (loByte v) (hiByte v) = v := by
  unfold joinBytes loByte hiByte
  ext i hi
  simp only [BitVec.getElem_or, BitVec.getElem_setWidth, BitVec.getElem_shiftLeft]
  by_cases h : i < 8
  · simp [h, BitVec.getLsbD_extractLsb', BitVec.getLsbD_eq_getElem hi]
  · have h8 : i - 8 < 8 := by omega
    have : 8 + (i - 8) = i := by omega
    simp [h, BitVec.getLsbD_extractLsb', h8, this, BitVec.getLsbD_eq_getElem hi]

/-- A word is determined by its two bytes. -/
theorem word_eq_of_bytes {v w : Word} (hlo : loByte v = loByte w) (hhi : hiByte v = hiByte w) : v = w := by
  rw [← joinBytes_split v, ← joinBytes_split w, hlo, hhi]

/-- Inverting a bit changes the byte. -/
theorem flipBit_ne (b : Byte) (k : Fin 8) : flipBit b k ≠ b := by
  intro h
  have h1 : (1#8 <<< k.val) = 0#8 := by
    have := congrArg (fun x => b ^^^ x) h
    simpa [flipBit, ← BitVec.xor_assoc] using this
  have h2 : ∀ j : Fin 8, (1#8 <<< j.val) ≠ 0#8 := by decide
  exact h2 k h1

end Sys2Proof
end

