-- ==== Sys2Proof/Laws/Frames.lean ====
section
/-! SUPPORT. The structural check and the two frame layouts: a sound sequence is exactly a body and its CRC
field, and the frames the block lays out are sound. -/

namespace Sys2Proof

@[simp] theorem crcField_length (f : Word → Byte → Word) (body : Bytes) : (crcField f body).length = 2 := rfl

@[simp] theorem commandFrame_length (f : Word → Byte → Word) (op p1 q0 q1 : Byte) (d : Bytes) :
    (commandFrame f op p1 q0 q1 d).length = 7 + d.length := by
  simp [commandFrame]; omega

@[simp] theorem responseFrame_length (f : Word → Byte → Word) (d : Bytes) :
    (responseFrame f d).length = 3 + d.length := by
  simp [responseFrame]; omega

/-- What a sound sequence is: its length is its count, at least the minimum, and its last two bytes are the
CRC field of the rest. -/
theorem frameCheck_none_iff (f : Word → Byte → Word) (s : Bytes) {min : Nat} (hm : 3 ≤ min) :
    frameCheck f s min = .none ↔
      s.length = (byteAt s 0).toNat ∧ min ≤ s.length ∧
        s = s.take (s.length - 2) ++ crcField f (s.take (s.length - 2)) := by
  unfold frameCheck
  by_cases h0 : s.length = 0
  · simp only [h0, if_true]
    constructor
    · intro h; cases h
    · intro h; omega
  simp only [h0, if_false]
  by_cases h1 : (byteAt s 0).toNat < min
  · simp only [h1, if_true]
    constructor
    · intro h; cases h
    · intro h; omega
  simp only [h1, if_false]
  by_cases h2 : s.length < (byteAt s 0).toNat
  · simp only [h2, if_true]
    constructor
    · intro h; cases h
    · intro h; omega
  simp only [h2, if_false]
  by_cases h3 : s.length > (byteAt s 0).toNat
  · simp only [h3, if_true]
    constructor
    · intro h; cases h
    · intro h; omega
  simp only [h3, if_false]
  have hn : s.length = (byteAt s 0).toNat := by omega
  have hmn : min ≤ s.length := by omega
  have hsl : slice s 0 ((byteAt s 0).toNat - 3) = s.take (s.length - 2) := by
    unfold slice
    rw [← hn, List.drop_zero]
    congr 1
    omega
  have hlast : s = s.take (s.length - 2) ++ [byteAt s (s.length - 2), byteAt s (s.length - 1)] := by
    conv_lhs => rw [← List.take_append_drop (s.length - 2) s]
    congr 1
    rw [List.drop_eq_getElem_cons (by omega), List.drop_eq_getElem_cons (by omega)]
    have e1 : s.length - 2 + 1 = s.length - 1 := by omega
    simp only [e1, byteAt]
    rw [List.getD_eq_getElem _ _ (by omega), List.getD_eq_getElem _ _ (by omega)]
    simp [show s.length - 1 + 1 = s.length by omega]
  rw [hsl, ← hn]
  constructor
  · intro h
    split at h
    · cases h
    · next hc =>
      simp only [not_or, not_not] at hc
      refine ⟨rfl, hmn, ?_⟩
      rw [crcField, ← hc.1, ← hc.2]
      exact hlast
  · rintro ⟨-, -, h⟩
    have h' := hlast.symm.trans h
    rw [List.append_cancel_left_eq] at h'
    simp only [crcField, List.cons.injEq, and_true] at h'
    rw [if_neg]
    simp [h'.1, h'.2]

/-- A body whose first byte is the length of the whole, with its CRC field, is sound. -/
theorem frameCheck_body (f : Word → Byte → Word) (b : Byte) (t : Bytes) {min : Nat} (hm : 3 ≤ min)
    (hb : b.toNat = t.length + 3) (hmin : min ≤ t.length + 3) :
    frameCheck f ((b :: t) ++ crcField f (b :: t)) min = .none := by
  rw [frameCheck_none_iff f _ hm]
  have hl : ((b :: t) ++ crcField f (b :: t)).length = t.length + 3 := by simp
  refine ⟨?_, by omega, ?_⟩
  · rw [hl, ← hb]; simp [byteAt]
  · rw [hl]
    have : (b :: t ++ crcField f (b :: t)).take (t.length + 3 - 2) = b :: t := by
      rw [List.take_append_of_le_length (by simp), List.take_of_length_le (by simp)]
    rw [this]

/-- The command frames the block lays out are sound, under every `CRC_STEP`. -/
theorem frameCheck_commandFrame (f : Word → Byte → Word) (op p1 q0 q1 : Byte) {d : Bytes}
    (hd : d.length ≤ 248) : frameCheck f (commandFrame f op p1 q0 q1 d) minCommandCount = .none := by
  refine frameCheck_body f _ ([op, p1, q0, q1] ++ d) (by decide) ?_ ?_
  · simp only [BitVec.toNat_ofNat, List.length_append, List.length_cons, List.length_nil]; omega
  · simp [minCommandCount]

/-- The framed responses the block's decoder expects are sound, under every `CRC_STEP`. -/
theorem frameCheck_responseFrame (f : Word → Byte → Word) {d : Bytes} (hd : d.length ≤ 252) :
    frameCheck f (responseFrame f d) minResponseCount = .none := by
  refine frameCheck_body f _ d (by decide) ?_ ?_
  · simp only [BitVec.toNat_ofNat]; omega
  · simp [minResponseCount]

/-- The fields a command frame was laid out from. -/
theorem commandFrame_fields (f : Word → Byte → Word) (op p1 q0 q1 : Byte) (d : Bytes) :
    byteAt (commandFrame f op p1 q0 q1 d) 0 = BitVec.ofNat 8 (7 + d.length) ∧
    byteAt (commandFrame f op p1 q0 q1 d) 1 = op ∧ byteAt (commandFrame f op p1 q0 q1 d) 2 = p1 ∧
    byteAt (commandFrame f op p1 q0 q1 d) 3 = q0 ∧ byteAt (commandFrame f op p1 q0 q1 d) 4 = q1 :=
  ⟨rfl, rfl, rfl, rfl, rfl⟩

/-- The payload of a command frame the block laid out. -/
theorem commandPayload_commandFrame (f : Word → Byte → Word) (op p1 q0 q1 : Byte) {d : Bytes}
    (hd : d.length ≤ 248) : commandPayload (commandFrame f op p1 q0 q1 d) = d := by
  unfold commandPayload slice
  rw [(commandFrame_fields f op p1 q0 q1 d).1, BitVec.toNat_ofNat]
  have : (7 + d.length) % 2 ^ 8 - 3 + 1 - 5 = d.length := by omega
  rw [this]
  simp [commandFrame]

/-- The data of a framed response so laid out. -/
theorem responseData_responseFrame (f : Word → Byte → Word) {d : Bytes} (hd : d.length ≤ 252) :
    responseData (responseFrame f d) = d := by
  unfold responseData slice
  have h0 : byteAt (responseFrame f d) 0 = BitVec.ofNat 8 (3 + d.length) := rfl
  rw [h0, BitVec.toNat_ofNat]
  have : (3 + d.length) % 2 ^ 8 - 3 + 1 - 1 = d.length := by omega
  rw [this]
  simp [responseFrame]

/-- A sound sequence has at most 255 bytes and its payload the length its count says. -/
theorem commandPayload_length {f : Word → Byte → Word} {s : Bytes}
    (h : frameCheck f s minCommandCount = .none) :
    (commandPayload s).length = s.length - 7 ∧ 7 ≤ s.length ∧ s.length ≤ 255 := by
  obtain ⟨hn, hmin, -⟩ := (frameCheck_none_iff f s (by decide)).1 h
  have := (byteAt s 0).isLt
  simp only [minCommandCount] at hmin
  refine ⟨?_, hmin, by omega⟩
  simp only [commandPayload, slice, List.length_take, List.length_drop]
  omega

theorem responseData_length {f : Word → Byte → Word} {s : Bytes}
    (h : frameCheck f s minResponseCount = .none) :
    (responseData s).length = s.length - 3 ∧ 3 ≤ s.length ∧ s.length ≤ 255 := by
  obtain ⟨hn, hmin, -⟩ := (frameCheck_none_iff f s (by decide)).1 h
  have := (byteAt s 0).isLt
  simp only [minResponseCount] at hmin
  refine ⟨?_, hmin, by omega⟩
  simp only [responseData, slice, List.length_take, List.length_drop]
  omega

end Sys2Proof
end

