-- ==== Sys2Proof/Laws/State.lean ====
section
/-! SUPPORT. One lemma per field of the state and of the result record, for each way they are written. -/

namespace Sys2Proof.Machine

section OkRes
variable (code : StatusCode) (val : Word) (opc p1 p2_0 p2_1 : Byte) (out : Bytes)
@[simp] theorem okRes_kind : (Result.okRes code val opc p1 p2_0 p2_1 out).kind = kindOf code := rfl
@[simp] theorem okRes_status : (Result.okRes code val opc p1 p2_0 p2_1 out).status = code.byte := rfl
@[simp] theorem okRes_reason : (Result.okRes code val opc p1 p2_0 p2_1 out).reason = .none := rfl
@[simp] theorem okRes_val : (Result.okRes code val opc p1 p2_0 p2_1 out).val = val := rfl
@[simp] theorem okRes_opc : (Result.okRes code val opc p1 p2_0 p2_1 out).opc = opc := rfl
@[simp] theorem okRes_p1 : (Result.okRes code val opc p1 p2_0 p2_1 out).p1 = p1 := rfl
@[simp] theorem okRes_p2_0 : (Result.okRes code val opc p1 p2_0 p2_1 out).p2_0 = p2_0 := rfl
@[simp] theorem okRes_p2_1 : (Result.okRes code val opc p1 p2_0 p2_1 out).p2_1 = p2_1 := rfl
@[simp] theorem okRes_len : (Result.okRes code val opc p1 p2_0 p2_1 out).len = BitVec.ofNat 8 out.length := rfl
@[simp] theorem okRes_out : (Result.okRes code val opc p1 p2_0 p2_1 out).out = out := rfl

end OkRes

section ErrRes
variable (kind : Kind) (reason : Reason) (status : Byte)

@[simp] theorem errRes_kind : (Result.errRes kind reason status).kind = kind := rfl
@[simp] theorem errRes_status : (Result.errRes kind reason status).status = status := rfl
@[simp] theorem errRes_reason : (Result.errRes kind reason status).reason = reason := rfl
@[simp] theorem errRes_val : (Result.errRes kind reason status).val = 0 := rfl
@[simp] theorem errRes_opc : (Result.errRes kind reason status).opc = 0 := rfl
@[simp] theorem errRes_p1 : (Result.errRes kind reason status).p1 = 0 := rfl
@[simp] theorem errRes_p2_0 : (Result.errRes kind reason status).p2_0 = 0 := rfl
@[simp] theorem errRes_p2_1 : (Result.errRes kind reason status).p2_1 = 0 := rfl
@[simp] theorem errRes_len : (Result.errRes kind reason status).len = 0 := rfl
@[simp] theorem errRes_out : (Result.errRes kind reason status).out = [] := rfl

end ErrRes

section ResetRes

@[simp] theorem resetRes_kind : Result.reset.kind = .none := rfl
@[simp] theorem resetRes_status : Result.reset.status = 0 := rfl
@[simp] theorem resetRes_reason : Result.reset.reason = .none := rfl
@[simp] theorem resetRes_val : Result.reset.val = 0 := rfl
@[simp] theorem resetRes_opc : Result.reset.opc = 0 := rfl
@[simp] theorem resetRes_p1 : Result.reset.p1 = 0 := rfl
@[simp] theorem resetRes_p2_0 : Result.reset.p2_0 = 0 := rfl
@[simp] theorem resetRes_p2_1 : Result.reset.p2_1 = 0 := rfl
@[simp] theorem resetRes_len : Result.reset.len = 0 := rfl
@[simp] theorem resetRes_out : Result.reset.out = [] := rfl

end ResetRes

section StateUpdates
variable (s : State) (a : Word) (r : Result) (es : List Event)

@[simp] theorem withRes_cfg : ({ s with res := r } : State).cfg = s.cfg := rfl
@[simp] theorem withRes_acc : ({ s with res := r } : State).acc = s.acc := rfl
@[simp] theorem withRes_res : ({ s with res := r } : State).res = r := rfl
@[simp] theorem withRes_events : ({ s with res := r } : State).events = s.events := rfl
@[simp] theorem withAccRes_cfg : ({ s with acc := a, res := r } : State).cfg = s.cfg := rfl
@[simp] theorem withAccRes_acc : ({ s with acc := a, res := r } : State).acc = a := rfl
@[simp] theorem withAccRes_res : ({ s with acc := a, res := r } : State).res = r := rfl
@[simp] theorem withAccRes_events : ({ s with acc := a, res := r } : State).events = s.events := rfl
@[simp] theorem withEvents_cfg : ({ s with events := es } : State).cfg = s.cfg := rfl
@[simp] theorem withEvents_acc : ({ s with events := es } : State).acc = s.acc := rfl
@[simp] theorem withEvents_res : ({ s with events := es } : State).res = s.res := rfl
@[simp] theorem withEvents_events : ({ s with events := es } : State).events = es := rfl

end StateUpdates

section Reset

@[simp] theorem reset_cfg : State.reset.cfg = Config.standard := rfl
@[simp] theorem reset_acc : State.reset.acc = 0 := rfl
@[simp] theorem reset_res : State.reset.res = Result.reset := rfl
@[simp] theorem reset_events : State.reset.events = [] := rfl

end Reset

end Sys2Proof.Machine
end

