-- ==== Sys2Proof/Laws/Ops.lean ====
section
/-! SUPPORT. What each shared operation does, said once; and what every instruction does to the state:
`exec_eq`. Later proofs cite these and do not unfold the operations. -/

namespace Sys2Proof.Machine

theorem finish_eq (r : Result) (s : State) : finish r s = .next { s with res := r } := rfl

theorem finishCrc_eq (a : Word) (s : State) :
    finishCrc a s = .next { s with acc := a, res := Result.okRes .ok (val := a) } := rfl

theorem raise_eq (k : Kind) (reason : Reason) (status : Byte) (s : State) :
    raise k reason status s = .next { s with res := Result.errRes k reason status } := rfl

theorem resetBlock_eq (s : State) :
    resetBlock s = .next { s with acc := 0x0000, res := Result.reset } := rfl

theorem mapStatus_listed {b : Byte} {code : StatusCode} (h : outcomeOf b = some code) (out : Bytes) :
    mapStatus b out = Result.okRes code (out := out) := by
  simp [mapStatus, h]

theorem mapStatus_unlisted {b : Byte} (h : outcomeOf b = none) (out : Bytes) :
    mapStatus b out = Result.errRes .communicationError .unmappedStatus b := by
  simp [mapStatus, h]

/-- The two results of the mapper. -/
theorem mapStatus_cases (b : Byte) (out : Bytes) :
    (∃ code, outcomeOf b = some code ∧ mapStatus b out = Result.okRes code (out := out)) ∨
    (outcomeOf b = none ∧ mapStatus b out = Result.errRes .communicationError .unmappedStatus b) := by
  cases h : outcomeOf b with
  | some code => exact .inl ⟨code, rfl, mapStatus_listed h out⟩
  | none => exact .inr ⟨rfl, mapStatus_unlisted h out⟩

/-- The byte of a code is listed as that code. -/
theorem outcomeOf_byte (code : StatusCode) : outcomeOf code.byte = some code := by
  cases code <;> rfl

/-- A listed byte is its code's byte. -/
theorem byte_of_outcomeOf {b : Byte} {code : StatusCode} (h : outcomeOf b = some code) : b = code.byte := by
  apply BitVec.eq_of_toNat_eq
  unfold outcomeOf at h
  split at h <;> cases h <;> assumption

/-- A byte is unlisted exactly when it is none of the six. -/
theorem outcomeOf_none_iff {b : Byte} :
    outcomeOf b = none ↔ b ∉ [0x00, 0x01, 0x0F, 0x11, 0x98, 0x99] := by
  revert b
  decide

/-- The record the mapper makes of a byte reports that byte. -/
theorem mapStatus_reports (b : Byte) (out : Bytes) : (mapStatus b out).ReportsStatus (fun x => x = b) := by
  rcases mapStatus_cases b out with ⟨code, hc, h⟩ | ⟨hc, h⟩
  · rw [h, byte_of_outcomeOf hc]
    cases code <;> simp [Result.ReportsStatus, kindOf, StatusCode.byte]
  · have hu := outcomeOf_none_iff.1 hc
    simp only [List.mem_cons, List.not_mem_nil, or_false, not_or] at hu
    rw [h]
    simp only [Result.ReportsStatus, errRes_kind, errRes_reason, errRes_status, reduceCtorEq, false_iff, true_iff]
    refine ⟨Ne.symm hu.2.1, Ne.symm hu.2.2.1, ?_, ⟨b, rfl, outcomeOf_none_iff.1 hc⟩, fun _ h => h.symm⟩
    exact fun h => h.elim (Ne.symm hu.2.2.2.2.1) (Ne.symm hu.2.2.2.2.2)

/-- The results of a framed response's delivery. -/
theorem deliverResponse_cases (c : Config) (data : Bytes) :
    (c.framedStatus = true ∧ data.length = 1 ∧ deliverResponse c data = mapStatus (byteAt data 0) data) ∨
    ((c.framedStatus = false ∨ data.length ≠ 1) ∧
      deliverResponse c data = Result.okRes .ok (out := data)) := by
  unfold deliverResponse
  split
  · next h => exact .inl ⟨h.1, by omega, rfl⟩
  · next h =>
    refine .inr ⟨?_, rfl⟩
    cases hc : c.framedStatus
    · exact .inl rfl
    · exact .inr (fun hl => h ⟨hc, by omega⟩)

/-- The result of a decoder reject. -/
def rejectRes : Reject → Result
  | .reservedOpsel _ => Result.errRes .parameterError .none 0x99
  | .unlistedStatus b => Result.errRes .communicationError .unmappedStatus b
  | .unsoundCommand r => Result.errRes .communicationError r 0x00
  | .unsoundResponse r => Result.errRes .communicationError r 0x00

theorem takeReject_eq (r : Reject) (s : State) : takeReject r s = .next { s with res := rejectRes r } := by
  cases r <;> rfl

/-- `ACC` after an instruction, from the parameters, the old `ACC` and the instruction alone. -/
def accAfter (c : Config) (acc : Word) : Instr → Word
  | .crcClr => 0x0000
  | .crcSeed c0 c1 => joinBytes c0 c1
  | .crcByte a => c.crcStep acc a
  | .crcBuf data => crc16 c.crcStep data acc
  | _ => acc

/-- The result of `DEC.CMD`. -/
def decCmdRes (c : Config) (data : Bytes) : Result :=
  if frameCheck c.crcStep data minCommandCount = .none then
    deliverCommand (byteAt data 1) (byteAt data 2) (byteAt data 3) (byteAt data 4) (commandPayload data)
  else Result.errRes .communicationError (frameCheck c.crcStep data minCommandCount) 0x00

/-- The result of `DEC.RSP`. -/
def decRspRes (c : Config) (data : Bytes) : Result :=
  if data.length = 1 then mapStatus (byteAt data 0) []
  else if frameCheck c.crcStep data minResponseCount = .none then deliverResponse c (responseData data)
  else Result.errRes .communicationError (frameCheck c.crcStep data minResponseCount) 0x00

/-- `RES` after an instruction, from the parameters, the old `ACC` and the instruction alone. -/
def resAfter (c : Config) (acc : Word) : Instr → Result
  | .crcClr => Result.okRes .ok (val := 0x0000)
  | .crcSeed c0 c1 => Result.okRes .ok (val := joinBytes c0 c1)
  | .crcByte a => Result.okRes .ok (val := c.crcStep acc a)
  | .crcBuf data => Result.okRes .ok (val := crc16 c.crcStep data acc)
  | .crcRd => Result.okRes .ok (val := acc)
  | .encCmd a b c0 c1 data =>
    if c.accepts a data.length then Result.okRes .ok (out := commandFrame c.crcStep a b c0 c1 data)
    else Result.errRes .parameterError .none 0x99
  | .decCmd data => decCmdRes c data
  | .decRsp data => decRspRes c data
  | .stMap a => mapStatus a []
  | .statusOk => Result.okRes .ok
  | .statusCheckMacFail => Result.okRes .checkMacFail
  | .statusExecError => Result.okRes .execError
  | .statusReady => Result.okRes .ready
  | .statusPaddingError => Result.okRes .paddingError
  | .statusBadParameters => Result.okRes .badParameters
  | .frameCmd opcode param1 p2_0 p2_1 payload => deliverCommand opcode param1 p2_0 p2_1 payload
  | .frameRsp data => deliverResponse c data
  | .frameStatus status => mapStatus status []

theorem execDecCmd_eq (data : Bytes) (s : State) :
    execDecCmd data s = .next { s with res := decCmdRes s.cfg data } := by
  unfold execDecCmd decCmdRes
  split <;> simp_all [finish_eq, raise_eq]

theorem execDecRsp_eq (data : Bytes) (s : State) :
    execDecRsp data s = .next { s with res := decRspRes s.cfg data } := by
  unfold execDecRsp decRspRes
  split
  · simp_all [finish_eq]
  · split <;> simp_all [finish_eq, raise_eq]

/-- Everything an instruction can do: it answers a next state, in which `ACC` and `RES` are functions of the
parameters, the old `ACC` and the instruction, and nothing else has changed. -/
theorem exec_eq (i : Instr) (s : State) :
    exec i s = .next { s with acc := accAfter s.cfg s.acc i, res := resAfter s.cfg s.acc i } := by
  cases i with
  | decCmd data => exact execDecCmd_eq data s
  | decRsp data => exact execDecRsp_eq data s
  | encCmd a b c0 c1 data =>
    show execEncCmd a b c0 c1 data s = _
    unfold execEncCmd
    simp only [accAfter, resAfter]
    split <;> rfl
  | _ => rfl

/-- `ACC` after something is handed to the block. -/
def issueAcc (c : Config) (acc : Word) (w : Encoded) : Word :=
  match decode c w with
  | .ok i => accAfter c acc i
  | .error _ => acc

/-- `RES` after something is handed to the block. -/
def issueRes (c : Config) (acc : Word) (w : Encoded) : Result :=
  match decode c w with
  | .ok i => resAfter c acc i
  | .error r => rejectRes r

/-- Everything that handing something to the block can do. -/
theorem perform_issue_eq (w : Encoded) (s : State) :
    perform (.issue w) s =
      .next { s with acc := issueAcc s.cfg s.acc w, res := issueRes s.cfg s.acc w } := by
  simp only [perform, issueAcc, issueRes]
  cases decode s.cfg w with
  | ok i => exact exec_eq i s
  | error r => exact takeReject_eq r s

theorem perform_reset_eq (s : State) :
    perform .reset s = .next { s with acc := 0x0000, res := Result.reset } := rfl

/-- The three things a step can do. -/
theorem step_cases (s : State) :
    (s.events = [] ∧ step s = .next s) ∨
    (∃ rest, s.events = .reset :: rest ∧
      step s = .next { s with acc := 0x0000, res := Result.reset, events := rest }) ∨
    (∃ w rest, s.events = .issue w :: rest ∧
      step s = .next { s with acc := issueAcc s.cfg s.acc w, res := issueRes s.cfg s.acc w, events := rest }) := by
  unfold step takeEvent
  split
  · next h => split at h <;> simp_all
  · next e t h =>
    split at h
    · cases h
    · next e' rest hes =>
      cases h
      cases e with
      | reset => exact .inr (.inl ⟨rest, hes, rfl⟩)
      | issue w => exact .inr (.inr ⟨w, rest, hes, perform_issue_eq w _⟩)

/-- The pieces of a buffer, joined in order, are the buffer. -/
theorem pieces_flatten (s : Bytes) : (pieces s).flatten = s := by
  have cut : ∀ (fuel : Nat) (s : Bytes), (piecesFuel fuel s).flatten = s := by
    intro fuel
    induction fuel with
    | zero => simp [piecesFuel]
    | succ fuel ih =>
      intro s
      unfold piecesFuel
      split <;> simp [ih]
  exact cut s.length s

/-- The host's interface runs the machine's own step. -/
theorem core_step (s : State) : Host.Core.step core s = step s := rfl

end Sys2Proof.Machine
end

