-- ==== Sys2Proof/Laws/PerInstr.lean ====
section
/-! SUPPORT. Statements made for each instruction: the byte sequence its encoding carries is never cut to the
port's 255 bytes when the instruction is well formed. -/

namespace Sys2Proof

/-- The byte sequence an instruction's encoding carries, before the port. -/
def Instr.carried (c : Config) : Instr → Bytes
  | .crcBuf data => data
  | .encCmd _ _ _ _ data => data
  | .decCmd data => data
  | .decRsp data => data
  | .frameCmd op p1 q0 q1 payload => commandFrame c.crcStep op p1 q0 q1 payload
  | .frameRsp data => responseFrame c.crcStep data
  | .frameStatus b => [b]
  | _ => []

/-- A sequence the port can carry is carried whole. -/
theorem ByteSeq.ofBytes_bytes {s : Bytes} (h : s.length ≤ 255) : (ByteSeq.ofBytes s).bytes = s :=
  List.take_of_length_le h

namespace Laws.EncodeFits

/-- A well-formed instruction's byte sequence is carried whole. -/
def Statement (i : Instr) : Prop :=
  i.wf = true → ∀ c : Config, (ByteSeq.ofBytes (i.carried c)).bytes = i.carried c

theorem crcClr : Statement .crcClr := fun _ _ => rfl
theorem crcSeed (c0 c1 : Byte) : Statement (.crcSeed c0 c1) := fun _ _ => rfl
theorem crcByte (a : Byte) : Statement (.crcByte a) := fun _ _ => rfl
theorem crcBuf (data : Bytes) : Statement (.crcBuf data) := fun h _ =>
  ByteSeq.ofBytes_bytes (of_decide_eq_true h)
theorem crcRd : Statement .crcRd := fun _ _ => rfl
theorem encCmd (a b c0 c1 : Byte) (data : Bytes) : Statement (.encCmd a b c0 c1 data) := fun h _ =>
  ByteSeq.ofBytes_bytes (of_decide_eq_true h)
theorem decCmd (data : Bytes) : Statement (.decCmd data) := fun h _ =>
  ByteSeq.ofBytes_bytes (of_decide_eq_true h)
theorem decRsp (data : Bytes) : Statement (.decRsp data) := fun h _ =>
  ByteSeq.ofBytes_bytes (of_decide_eq_true h)
theorem stMap (a : Byte) : Statement (.stMap a) := fun _ _ => rfl
theorem statusOk : Statement .statusOk := fun _ _ => rfl
theorem statusCheckMacFail : Statement .statusCheckMacFail := fun _ _ => rfl
theorem statusExecError : Statement .statusExecError := fun _ _ => rfl
theorem statusReady : Statement .statusReady := fun _ _ => rfl
theorem statusPaddingError : Statement .statusPaddingError := fun _ _ => rfl
theorem statusBadParameters : Statement .statusBadParameters := fun _ _ => rfl
theorem frameCmd (opcode param1 p2_0 p2_1 : Byte) (payload : Bytes) :
    Statement (.frameCmd opcode param1 p2_0 p2_1 payload) := fun h _ =>
  ByteSeq.ofBytes_bytes (by
    have : payload.length ≤ 248 := of_decide_eq_true h
    simp only [Instr.carried, commandFrame_length]; omega)
theorem frameRsp (data : Bytes) : Statement (.frameRsp data) := fun h _ =>
  ByteSeq.ofBytes_bytes (by
    have : data.length ≤ 252 := of_decide_eq_true h
    simp only [Instr.carried, responseFrame_length]; omega)
theorem frameStatus (status : Byte) : Statement (.frameStatus status) := fun _ _ => rfl

end Laws.EncodeFits

end Sys2Proof
end

