-- ==== Sys2Proof/Tests/Slice0.lean ====
section
/-! SUPPORT. The model's own tests: the well-formedness checks, each constructor's encoding written out from
the spec, vectors of 95_test_vectors.md, and a witness for the hypotheses of each statement that has some. -/

namespace Sys2Proof.Tests

open Sys2Proof.Machine

set_option maxRecDepth 16384

/-- The result record of a next state. -/
def resOf : Host.Outcome State Fault Refusal → Option Result
  | .next t => some t.res
  | _ => none

/-- `ACC` of a next state. -/
def accOf : Host.Outcome State Fault Refusal → Option Word
  | .next t => some t.acc
  | _ => none

/-- The state after reset with `ACC` at `a`. -/
def withAcc (a : Word) : State := { State.reset with acc := a }

/-- The state after reset of an instance with `FRAMED_STATUS = true`. -/
def framed : State := { State.reset with cfg := { Config.standard with framedStatus := true } }

/-- The state after reset of an instance with `OPSIZE(0x12) = (4, 32)`. -/
def sized : State :=
  { State.reset with cfg := { Config.standard with opsizes := [⟨0x12, 4, 32, by decide⟩] } }

/-- An instance with `MAX_PAYLOAD = 0`. -/
def tiny : State := { State.reset with cfg := { Config.standard with maxPayload := 0 } }

/-! ### WellFormed: one ill-formed term for each check, and its neighbour -/

theorem test_wf_crcBuf : (Instr.crcBuf (List.replicate 256 0)).wf = false ∧
    (Instr.crcBuf (List.replicate 255 0)).wf = true := by decide
theorem test_wf_encCmd : (Instr.encCmd 0 0 0 0 (List.replicate 256 0)).wf = false ∧
    (Instr.encCmd 0 0 0 0 (List.replicate 255 0)).wf = true := by decide
theorem test_wf_decCmd : (Instr.decCmd (List.replicate 256 0)).wf = false ∧
    (Instr.decCmd (List.replicate 255 0)).wf = true := by decide
theorem test_wf_decRsp : (Instr.decRsp (List.replicate 256 0)).wf = false ∧
    (Instr.decRsp (List.replicate 255 0)).wf = true := by decide
theorem test_wf_frameCmd : (Instr.frameCmd 0 0 0 0 (List.replicate 249 0)).wf = false ∧
    (Instr.frameCmd 0 0 0 0 (List.replicate 248 0)).wf = true := by decide
theorem test_wf_frameRsp : (Instr.frameRsp (List.replicate 253 0)).wf = false ∧
    (Instr.frameRsp (List.replicate 252 0)).wf = true := by decide

/-! ### Decoding: every constructor's encoding, from 30_encoding.md R40, R43, R46, R48, R50 -/

/-- A request with `A = 0x12`, `B = 0x34`, `C0 = 0x83`, `C1 = 0xA5`, two bytes of data. -/
def req (opsel : Byte) : Encoded :=
  .request ⟨opsel, 0x12, 0x34, 0x83, 0xA5, ⟨[0x01, 0x02], by decide⟩⟩

theorem test_decode_crc :
    decode Config.standard (req 0x00) = .ok .crcClr ∧
    decode Config.standard (req 0x01) = .ok (.crcSeed 0x83 0xA5) ∧
    decode Config.standard (req 0x02) = .ok (.crcByte 0x12) ∧
    decode Config.standard (req 0x03) = .ok (.crcBuf [0x01, 0x02]) ∧
    decode Config.standard (req 0x04) = .ok .crcRd := by decide
theorem test_decode_codec :
    decode Config.standard (req 0x08) = .ok (.encCmd 0x12 0x34 0x83 0xA5 [0x01, 0x02]) ∧
    decode Config.standard (req 0x09) = .ok (.decCmd [0x01, 0x02]) ∧
    decode Config.standard (req 0x0A) = .ok (.decRsp [0x01, 0x02]) ∧
    decode Config.standard (req 0x0B) = .ok (.stMap 0x12) := by decide
theorem test_decode_reserved :
    decode Config.standard (req 0x05) = .error (.reservedOpsel 0x05) ∧
    decode Config.standard (req 0x07) = .error (.reservedOpsel 0x07) ∧
    decode Config.standard (req 0x0C) = .error (.reservedOpsel 0x0C) ∧
    decode Config.standard (req 0xFF) = .error (.reservedOpsel 0xFF) := by decide
theorem test_decode_status :
    decode Config.standard (.status 0x00) = .ok .statusOk ∧
    decode Config.standard (.status 0x01) = .ok .statusCheckMacFail ∧
    decode Config.standard (.status 0x0F) = .ok .statusExecError ∧
    decode Config.standard (.status 0x11) = .ok .statusReady ∧
    decode Config.standard (.status 0x98) = .ok .statusPaddingError ∧
    decode Config.standard (.status 0x99) = .ok .statusBadParameters ∧
    decode Config.standard (.status 0x10) = .error (.unlistedStatus 0x10) := by decide
/-- V-E10's frame and V-P20's, V-P9's responses; V-D5, V-P19b refused. -/
theorem test_decode_frames :
    decode Config.standard (.command ⟨[0x07, 0x17, 0x01, 0x67, 0x3B, 0xEA, 0x51], by decide⟩)
      = .ok (.frameCmd 0x17 0x01 0x67 0x3B []) ∧
    decode Config.standard (.response ⟨[0x03, 0x80, 0x02], by decide⟩) = .ok (.frameRsp []) ∧
    decode Config.standard (.response ⟨[0x04], by decide⟩) = .ok (.frameStatus 0x04) ∧
    decode Config.standard (.command ⟨[0x07, 0x30, 0x00, 0x00, 0x00, 0x03, 0xDD], by decide⟩)
      = .error (.unsoundCommand .crcMismatch) ∧
    decode Config.standard (.response ⟨[0x04, 0x11, 0x33, 0x42], by decide⟩)
      = .error (.unsoundResponse .crcMismatch) := by decide
/-- The selectors and the status bytes of the opcode table, as its words. -/
theorem test_table_words :
    [0x00, 0x01, 0x02, 0x03, 0x04, 0x08, 0x09, 0x0A, 0x0B].map (decodeTableWord 8) =
      [some .crcClr, some (.crcSeed 0 0), some (.crcByte 0), some (.crcBuf []), some .crcRd,
       some (.encCmd 0 0 0 0 []), some (.decCmd []), some (.decRsp []), some (.stMap 0)] ∧
    [0x0F, 0x11, 0x98, 0x99, 0x05].map (decodeTableWord 8) =
      [some .statusExecError, some .statusReady, some .statusPaddingError, some .statusBadParameters, none] := by
  decide

/-! ### Vectors of 95_test_vectors.md -/

/-- V-T2, V-T7, V-T10, V-T13. -/
theorem test_crcStep : crcStepR62 0x0000 0x01 = 0x8303 ∧ crcStepR62 0x0000 0xFF = 0x0202 ∧
    crcStepR62 0xFFFF 0x00 = 0xFD02 ∧ crcStepR62 0x1234 0x56 = 0x3510 := by decide
/-- V-C1. -/
theorem test_crcClr : accOf (exec .crcClr (withAcc 0x1234)) = some 0x0000 := by decide
/-- V-C2: the low byte is in `C0`. -/
theorem test_crcSeed : accOf (exec (.crcSeed 0x83 0xA5) State.reset) = some 0xA583 := by decide
/-- V-C6. -/
theorem test_crcByte : resOf (exec (.crcByte 0x01) State.reset) =
    some { Result.reset with kind := .success, val := 0x8303 } := by decide
/-- V-C11: the seed matters. -/
theorem test_crcBuf : accOf (exec (.crcBuf [0x01, 0x02, 0x03, 0x04]) (withAcc 0xFFFF)) = some 0x85D4 := by
  decide
/-- V-C12: the ASCII bytes of 123456789. -/
theorem test_crcBuf_digits :
    accOf (exec (.crcBuf [0x31, 0x32, 0x33, 0x34, 0x35, 0x36, 0x37, 0x38, 0x39]) State.reset) = some 0xBCDD := by
  decide
/-- V-C4. -/
theorem test_crcRd : resOf (exec .crcRd (withAcc 0x5D03)) =
    some { Result.reset with kind := .success, val := 0x5D03 } := by decide
/-- V-E3. -/
theorem test_encCmd : resOf (exec (.encCmd 0x12 0x00 0x05 0x00 [0x11, 0x22, 0x33, 0x44]) State.reset) =
    some { Result.reset with kind := .success, len := 11, out := [0x0B, 0x12, 0x00, 0x05, 0x00, 0x11, 0x22, 0x33, 0x44, 0xA2, 0x42] } := by
  decide
/-- V-E5, V-E5b: 33 bytes and 3 bytes where `OPSIZE(0x12) = (4, 32)`; V-E9. -/
theorem test_encCmd_refuses :
    resOf (exec (.encCmd 0x12 0x82 0x08 0x00 (List.replicate 33 0)) sized) =
      some { Result.reset with kind := .parameterError, status := 0x99 } ∧
    resOf (exec (.encCmd 0x12 0x82 0x08 0x00 [0, 1, 2]) sized) =
      some { Result.reset with kind := .parameterError, status := 0x99 } ∧
    resOf (exec (.encCmd 0x12 0x00 0x00 0x00 [0x00]) tiny) =
      some { Result.reset with kind := .parameterError, status := 0x99 } := by decide
/-- V-D2. -/
theorem test_decCmd :
    resOf (exec (.decCmd [0x0B, 0x12, 0x00, 0x05, 0x00, 0x11, 0x22, 0x33, 0x44, 0xA2, 0x42]) State.reset) =
    some { Result.reset with kind := .success, opc := 0x12, p2_0 := 0x05, len := 4, out := [0x11, 0x22, 0x33, 0x44] } := by
  decide
/-- V-D3 to V-D8. -/
theorem test_decCmd_reasons :
    [[0x07, 0x31, 0x00, 0x00, 0x00, 0x03, 0x5D], [0x06, 0x30, 0x00, 0x00, 0x00, 0x03, 0x5D],
     [0x0F, 0x30, 0x00, 0x00, 0x00, 0x03, 0x5D], [0x07, 0x30, 0x00, 0x00, 0x00, 0x03, 0x5D, 0x00], []].map
      (fun d => (resOf (exec (.decCmd d) State.reset)).map Result.reason) =
    [some .crcMismatch, some .badCount, some .short, some .long, some .empty] := by decide
/-- V-P11 under both values of `FRAMED_STATUS`. -/
theorem test_decRsp_framed :
    resOf (exec (.decRsp [0x04, 0x11, 0x33, 0x43]) State.reset) =
      some { Result.reset with kind := .success, len := 1, out := [0x11] } ∧
    resOf (exec (.decRsp [0x04, 0x11, 0x33, 0x43]) framed) =
      some { Result.reset with kind := .success, status := 0x11, len := 1, out := [0x11] } := by decide
/-- V-P16 under `FRAMED_STATUS = true`: no output bytes. V-P9: one byte is never a cut-off frame. -/
theorem test_decRsp_unlisted :
    resOf (exec (.decRsp [0x04, 0x55, 0xFF, 0x43]) framed) =
      some { Result.reset with kind := .communicationError, reason := .unmappedStatus, status := 0x55 } ∧
    resOf (exec (.decRsp [0x04]) State.reset) =
      some { Result.reset with kind := .communicationError, reason := .unmappedStatus, status := 0x04 } := by
  decide
/-- V-S2, V-S6, V-S8. -/
theorem test_stMap :
    resOf (exec (.stMap 0x01) State.reset) =
      some { Result.reset with kind := .authenticationFailure, status := 0x01 } ∧
    resOf (exec (.stMap 0x99) State.reset) =
      some { Result.reset with kind := .parameterError, status := 0x99 } ∧
    resOf (exec (.stMap 0x9A) State.reset) =
      some { Result.reset with kind := .communicationError, reason := .unmappedStatus, status := 0x9A } := by
  decide
/-- V-S1 to V-S6. -/
theorem test_statusCodes :
    [Instr.statusOk, .statusCheckMacFail, .statusExecError, .statusReady, .statusPaddingError,
      .statusBadParameters].map
      (fun i => (resOf (exec i State.reset)).map (fun r => (r.kind.code, r.status))) =
    [some (1, 0x00), some (5, 0x01), some (4, 0x0F), some (1, 0x11), some (2, 0x98), some (2, 0x99)] := by decide
/-- V-D1. -/
theorem test_frameCmd : resOf (exec (.frameCmd 0x30 0x00 0x00 0x00 []) State.reset) =
    some { Result.reset with kind := .success, opc := 0x30 } := by decide
/-- V-P13 under both values of `FRAMED_STATUS`. -/
theorem test_frameRsp :
    resOf (exec (.frameRsp [0x0F]) State.reset) =
      some { Result.reset with kind := .success, len := 1, out := [0x0F] } ∧
    resOf (exec (.frameRsp [0x0F]) framed) =
      some { Result.reset with kind := .deviceExecError, status := 0x0F, len := 1, out := [0x0F] } := by decide
/-- V-P4. -/
theorem test_frameStatus : resOf (exec (.frameStatus 0x0F) State.reset) =
    some { Result.reset with kind := .deviceExecError, status := 0x0F } := by decide
/-- V-R2. -/
theorem test_reserved :
    (match step { withAcc 0x0885 with events := [.issue (req 0x05)] } with
     | .next t => some (t.acc, t.res)
     | _ => none) =
    some (0x0885, { Result.reset with kind := .parameterError, status := 0x99 }) := by decide
/-- V-C20's two-piece cut: a buffer of 300 bytes is 255 and 45. -/
theorem test_pieces : (pieces (List.replicate 300 0)).map List.length = [255, 45] := by
  decide
/-- P-3, ending 3c: no answer from the transport; and the refused command makes no call. -/
theorem test_execute :
    resOf (execute (fun _ => none) 0x02 0x00 0x08 0x00 ⟨[], by decide⟩ (withAcc 0x9815)) =
      some { Result.reset with kind := .communicationError, reason := .empty } ∧
    accOf (execute (fun _ => none) 0x02 0x00 0x08 0x00 ⟨[], by decide⟩ (withAcc 0x9815)) = some 0x9815 ∧
    resOf (execute (fun _ => some ⟨[0x0F], by decide⟩) 0x02 0x00 0x08 0x00 ⟨[], by decide⟩ State.reset) =
      some { Result.reset with kind := .deviceExecError, status := 0x0F } := by decide
/-- The text of a line: CRC.SEED 0xA583. -/
theorem test_text : (AsmLine.crcSeed 0xA583).text = "CRC.SEED 0xA583".toList := by decide

/-! ### Witnesses: a state and operands that meet the hypotheses of each statement -/

/-- A request with each selector, and reserved selectors at the ends of both ranges. -/
theorem witness_SelectorSelectsOperation :
    (∀ o : Byte, (Request.blank o).opsel = o) ∧
    ∀ o ∈ ([0x05, 0x07, 0x0C, 0xFF] : List Byte), o ∉ [0x00, 0x01, 0x02, 0x03, 0x04, 0x08, 0x09, 0x0A, 0x0B] :=
  ⟨fun _ => rfl, by decide⟩
/-- Each end of the two reserved ranges. -/
theorem witness_ReservedSelectorResult : ∀ o : Byte, o ∈ [0x05, 0x07, 0x0C, 0xFF] →
    (0x05 ≤ (Request.blank o).opsel.toNat ∧ (Request.blank o).opsel.toNat ≤ 0x07) ∨
    (0x0C ≤ (Request.blank o).opsel.toNat ∧ (Request.blank o).opsel.toNat ≤ 0xFF) := by decide
theorem witness_UnlistedFieldsIgnored : ∃ r r' : Request, r ≠ r' ∧ r.opsel = r'.opsel ∧
    (r.opsel ∈ [0x01, 0x08] → r.c0 = r'.c0 ∧ r.c1 = r'.c1) ∧ (r.opsel ∈ [0x02, 0x08, 0x0B] → r.a = r'.a) ∧
    (r.opsel = 0x08 → r.b = r'.b) ∧ (r.opsel ∈ [0x03, 0x08, 0x09, 0x0A] → r.data = r'.data) :=
  ⟨Request.blank 0x01, { Request.blank 0x01 with a := 0xFF }, by decide⟩
theorem witness_DecodeOfEncode :
    (Instr.frameCmd 0x30 0 0 0 (List.replicate 248 0)).wf = true ∧ Instr.crcRd.wf = true := by decide
theorem witness_EncodeOfDecode :
    decode Config.standard (.response ⟨[0x03, 0x80, 0x02], by decide⟩) = .ok (.frameRsp []) := by decide
theorem witness_StepRunsDecodedInstruction : State.reset.events = [] ∧
    ∃ (s : State) (w : Encoded) (rest : List Event) (i : Instr),
      s.events = .issue w :: rest ∧ decode s.cfg w = .ok i :=
  ⟨rfl, { State.reset with events := [.issue (.status 0x00), .reset] }, _, _, .statusOk, rfl, rfl⟩
theorem witness_PlacedWordRunsNext : decodeTableWord 8 0x08 = some (.encCmd 0 0 0 0 []) := by decide
theorem witness_EveryStepAnswers : ∃ (s : State) (w : Encoded) (rest : List Event), s.events = .issue w :: rest :=
  ⟨{ State.reset with events := [.issue (.command ⟨[], by decide⟩)] }, _, _, rfl⟩
theorem witness_SameEventsSameResults : (withAcc 0x1234).cfg = State.reset.cfg ∧ withAcc 0x1234 ≠ State.reset := by
  decide
theorem witness_CrcBufResult : ∃ d : Bytes, d = [] := ⟨[], rfl⟩
/-- A chain of two buffers with a framed command and a status byte between them. -/
theorem witness_ChainSurvivesFraming :
    ∀ r : Request, Encoded.request r ∈ [.request { Request.blank 0x03 with data := ⟨[0x01], by decide⟩ },
      .request (Request.blank 0x08), .status 0x00,
      .request { Request.blank 0x03 with data := ⟨[0x02], by decide⟩ }] → r.opsel ∉ [0x00, 0x01, 0x02] := by
  intro r hr
  simp only [List.mem_cons, Encoded.request.injEq, List.not_mem_nil, or_false, reduceCtorEq, false_or] at hr
  obtain rfl | rfl | rfl := hr <;> decide
theorem witness_Crc16PseudoOperation : ([0x01, 0x02] : Bytes).length ≤ 255 := by decide
theorem witness_EncCmdBuildsFrame : ∀ n ∈ [4, 32], (List.replicate n (0 : Byte)).length ≤ sized.cfg.maxPayload.val ∧
    (sized.cfg.opsize 0x12).1 ≤ (List.replicate n (0 : Byte)).length ∧
    (List.replicate n (0 : Byte)).length ≤ (sized.cfg.opsize 0x12).2 := by decide
theorem witness_EncCmdRefusesLength :
    (List.replicate 3 (0 : Byte)).length < (sized.cfg.opsize 0x12).1 ∧
    (sized.cfg.opsize 0x12).2 < (List.replicate 33 (0 : Byte)).length ∧
    tiny.cfg.maxPayload.val < (List.replicate 1 (0 : Byte)).length ∧
    249 ≤ (List.replicate 249 (0 : Byte)).length ∧
    ¬ (sized.cfg.maxPayload.val < 4 ∨ 4 < (sized.cfg.opsize 0x12).1 ∨ (sized.cfg.opsize 0x12).2 < 4) := by decide
theorem witness_EncCmdFrameFields : ∃ t, exec (.encCmd 0x30 0 0 0 []) State.reset = .next t ∧
    t.res.kind = .success := ⟨_, rfl, rfl⟩
theorem witness_FrameCheckFirstFault : minCommandCount = 7 ∧ minResponseCount = 3 := by decide
theorem witness_DecCmdResult :
    frameCheck State.reset.cfg.crcStep [0x07, 0x30, 0x00, 0x00, 0x00, 0x03, 0x5D] 7 = .none ∧
    frameCheck State.reset.cfg.crcStep [0x07] 7 ≠ .none := by decide
theorem witness_EncodeDecodeRoundTrip :
    (∃ t, exec (.encCmd 0x30 0 0 0 []) State.reset = .next t ∧ t.res.kind = .success) ∧
    (∃ t, exec (.decCmd [0x07, 0x30, 0x00, 0x00, 0x00, 0x03, 0x5D]) State.reset = .next t ∧
      t.res.kind = .success ∧ t.res.out.length ≤ State.reset.cfg.maxPayload.val ∧
      (State.reset.cfg.opsize t.res.opc).1 ≤ t.res.out.length ∧
      t.res.out.length ≤ (State.reset.cfg.opsize t.res.opc).2) :=
  ⟨⟨_, rfl, rfl⟩, ⟨_, rfl, rfl, by decide⟩⟩
/-- A step with both named properties: exclusive-or of the byte. -/
def xorStep (a : Word) (b : Byte) : Word := a ^^^ b.zeroExtend 16
theorem witness_xorStep_PAccInj : PAccInj xorStep := by
  intro b a a' hne h
  exact hne (BitVec.xor_left_inj (b.zeroExtend 16) |>.1 h)
theorem witness_xorStep_PBitInj : PBitInj xorStep := by
  intro a b k h
  have hz : (b.zeroExtend 16) = ((flipBit b k).zeroExtend 16) := BitVec.xor_right_inj a |>.1 h
  exact flipBit_ne b k (by simpa using (congrArg (BitVec.setWidth 8) hz).symm)
theorem witness_SingleBitFlipDetected :
    frameCheck xorStep [0x03, 0x03, 0x00] 3 = .none ∧
    frameCheck crcStepR62 [0x04, 0x11, 0x33, 0x43] 3 = .none ∧ (0x12 : Byte) ≠ byteAt [0x04, 0x11, 0x33, 0x43] 1 := by
  decide
theorem witness_CorruptedFrameNotDelivered :
    State.reset.cfg.crc = .r62 ∧ 6 < ([0x07, 0x30, 0x00, 0x00, 0x00, 0x03, 0x5D] : Bytes).length ∧
    frameCheck State.reset.cfg.crcStep [0x07, 0x30, 0x00, 0x00, 0x00, 0x03, 0x5D] 7 = .none ∧
    frameCheck State.reset.cfg.crcStep [0x04, 0x11, 0x33, 0x43] 3 = .none := by decide
theorem witness_DecRspBareStatus : (0x99 : Byte) = StatusCode.byte .badParameters ∧
    (0x02 : Byte) ∉ [0x00, 0x01, 0x0F, 0x11, 0x98, 0x99] := by decide
theorem witness_DecRspFramed :
    frameCheck State.reset.cfg.crcStep [0x04, 0x11, 0x33, 0x43] 3 = .none ∧ State.reset.cfg.framedStatus = false ∧
    frameCheck framed.cfg.crcStep [0x04, 0x11, 0x33, 0x43] 3 = .none ∧ framed.cfg.framedStatus = true ∧
    (byteAt [0x04, 0x11, 0x33, 0x43] 0).toNat = 4 ∧ byteAt [0x04, 0x11, 0x33, 0x43] 1 = StatusCode.ready.byte ∧
    frameCheck framed.cfg.crcStep [0x04, 0x55, 0xFF, 0x43] 3 = .none ∧
    byteAt [0x04, 0x55, 0xFF, 0x43] 1 ∉ [0x00, 0x01, 0x0F, 0x11, 0x98, 0x99] ∧
    frameCheck framed.cfg.crcStep [0x03, 0x80, 0x02] 3 = .none ∧ (byteAt [0x03, 0x80, 0x02] 0).toNat ≠ 4 := by decide
theorem witness_DecRspReportsFault : ([] : Bytes).length ≠ 1 ∧ frameCheck State.reset.cfg.crcStep [] 3 ≠ .none := by
  decide
theorem witness_PayloadOnlyAfterSoundCrc :
    (∃ t, exec (.decRsp [0x04, 0x11, 0x33, 0x43]) State.reset = .next t ∧ t.res.out ≠ []) ∧
    (∃ t, exec (.decCmd [0x0B, 0x12, 0x00, 0x05, 0x00, 0x11, 0x22, 0x33, 0x44, 0xA2, 0x42]) State.reset = .next t ∧
      t.res.out ≠ []) := ⟨⟨_, rfl, by decide⟩, ⟨_, rfl, by decide⟩⟩
theorem witness_StMapResult : (0x97 : Byte) ∉ [0x00, 0x01, 0x0F, 0x11, 0x98, 0x99] := by decide
theorem witness_FrameCmdDelivers : (List.replicate 248 (0 : Byte)).length ≤ 248 := by decide
theorem witness_FrameRspDelivers : (List.replicate 252 (0 : Byte)).length ≤ 252 ∧
    State.reset.cfg.framedStatus = false ∧ framed.cfg.framedStatus = true ∧ outcomeOf 0x0F = some .execError ∧
    outcomeOf 0x55 = none := by decide
theorem witness_BareStatusIsMapped : outcomeOf 0x01 = some .checkMacFail ∧ outcomeOf 0x02 = none := by decide
/-- A CheckMacFail, an unlisted byte and a bad frame, each issued and answered. -/
theorem witness_CheckMacFailKeptApart :
    (∃ t, perform (.issue (.status 0x01)) State.reset = .next t ∧ t.res.kind = .authenticationFailure) ∧
    (∃ t, perform (.issue (.status 0x02)) State.reset = .next t ∧ t.res.reason = .unmappedStatus) ∧
    (∃ t, perform (.issue (.response ⟨[], by decide⟩)) State.reset = .next t ∧ t.res.reason = .empty) ∧
    (0x01 : Byte) = StatusCode.checkMacFail.byte ∧
    ((Request.blank 0x0B).opsel = 0x0B ∧ ({ Request.blank 0x0B with a := 0x01 } : Request).a = 0x01) ∧
    ({ Request.blank 0x0A with data := ⟨[0x01], by decide⟩ } : Request).data.bytes = [0x01] :=
  ⟨⟨_, rfl, rfl⟩, ⟨_, rfl, rfl⟩, ⟨_, rfl, rfl⟩, rfl, ⟨rfl, rfl⟩, rfl⟩
/-- The conditions of each row: the least and greatest refused lengths, an unsound command, an unsound
response, a bare and a framed status byte of each failing kind's codes and an unlisted one, a reserved
selector. -/
theorem witness_ErrorsByOperation :
    (3 < (sized.cfg.opsize 0x12).1 ∧ (sized.cfg.opsize 0x12).2 < 33 ∧ tiny.cfg.maxPayload.val < 1) ∧
    frameCheck State.reset.cfg.crcStep [0x07] 7 ≠ .none ∧
    frameCheck State.reset.cfg.crcStep [] 3 ≠ .none ∧
    (∀ b : Byte, StatusReceived State.reset.cfg [b] b) ∧
    StatusReceived framed.cfg [0x04, 0x11, 0x33, 0x43] 0x11 ∧
    StatusReceived framed.cfg [0x04, 0x55, 0xFF, 0x43] 0x55 ∧
    (0x55 : Byte) ∉ [0x00, 0x01, 0x0F, 0x11, 0x98, 0x99] ∧
    ∀ o ∈ ([0x05, 0x07, 0x0C, 0xFF] : List Byte), o ∉ [0x00, 0x01, 0x02, 0x03, 0x04, 0x08, 0x09, 0x0A, 0x0B] :=
  ⟨by decide, by decide, by decide, fun _ => .inl rfl, .inr (by decide), .inr (by decide), by decide, by decide⟩
theorem witness_AccWrittenByFourOperations :
    (∃ t, perform (.issue (.request (Request.blank 0x00))) (withAcc 0x1234) = .next t ∧
      t.acc ≠ (withAcc 0x1234).acc) ∧
    (∀ r : Request, Encoded.status 0x00 = .request r → r.opsel ∉ [0x00, 0x01, 0x02, 0x03, 0x04]) :=
  ⟨⟨_, rfl, by decide⟩, fun _ h => by cases h⟩
theorem witness_InstructionFrame : ∃ t, exec (.crcByte 0x01) State.reset = .next t := ⟨_, rfl⟩
theorem witness_ParametersNeverChange : ∃ t, step { framed with events := [.reset] } = .next t := ⟨_, rfl⟩
theorem witness_OldResultIrrelevant : ∃ (s : State) (w : Encoded) (rest : List Event), s.events = .issue w :: rest :=
  ⟨{ State.reset with events := [.issue (.request (Request.blank 0x04))] }, _, _, rfl⟩
theorem witness_RepeatingRequestIsIdempotent :
    (∀ r : Request, Encoded.request (Request.blank 0x01) = .request r → r.opsel ∉ [0x02, 0x03]) ∧
    (∃ t, perform (.issue (.request (Request.blank 0x01))) (withAcc 0x1234) = .next t) ∧
    (Request.blank 0x02).opsel = 0x02 ∧ (Request.blank 0x03).opsel = 0x03 := by
  refine ⟨fun r h => ?_, ⟨_, rfl⟩, rfl, rfl⟩
  cases h
  decide
theorem witness_StepKeepsInvariant : State.reset.inv = true ∧
    ∃ t, step (State.reset.withFetchWord 8 0x0B) = .next t := ⟨by decide, _, rfl⟩
theorem witness_EveryResultIsSound : ∃ t, perform (.issue (.status 0x98)) State.reset = .next t := ⟨_, rfl⟩
theorem witness_EveryOpsizeHasRows : ∀ _ : Byte, ((4, 32) : Nat × Nat).1 ≤ ((4, 32) : Nat × Nat).2 := by decide
theorem witness_ExecuteProcedure :
    sized.cfg.accepts 0x12 33 = false ∧ sized.cfg.accepts 0x12 32 = true ∧
    (∃ (tr : Bytes → Option ByteSeq) (received : ByteSeq), ∀ f, tr f = some received) ∧
    (∃ tr : Bytes → Option ByteSeq, ∀ f, tr f = none) :=
  ⟨by decide, by decide, ⟨fun _ => some ⟨[0x00], by decide⟩, _, fun _ => rfl⟩, ⟨fun _ => none, fun _ => rfl⟩⟩

end Sys2Proof.Tests
end

