-- ==== Sys2Proof/Proofs/Scope.lean ====
section
/-! PROOFS. The parameters of an instance (00_scope.md R9): a list of rows gives every `OPSIZE`. -/

namespace Sys2Proof

/-- `OPSIZE` of an opcode whose first row is known (R9). -/
theorem Config.opsize_of_find?_eq_some {c : Config} {op : Byte} {row : OpsizeRow}
    (h : c.opsizes.find? (fun r => r.op == op) = some row) : c.opsize op = (row.lo, row.hi) := by
  simp only [Config.opsize, h]

section
variable (f : Byte → Nat × Nat) (h : ∀ op, (f op).1 ≤ (f op).2)

/-- The row that gives `op` the pair `f op`. -/
def OpsizeRow.ofFun (op : Byte) : OpsizeRow :=
  ⟨op, (f op).1, (f op).2, h op⟩

@[simp] theorem OpsizeRow.ofFun_op (op : Byte) : (OpsizeRow.ofFun f h op).op = op := rfl

/-- The table of `f`: one row for each of the 256 opcodes. -/
def opsizeTable : List OpsizeRow :=
  (FinEnum.toList Byte).map (OpsizeRow.ofFun f h)

theorem mem_opsizeTable {row : OpsizeRow} : row ∈ opsizeTable f h ↔ ∃ op, OpsizeRow.ofFun f h op = row := by
  simp [opsizeTable]

/-- Each opcode has a row in the table, and a row found under `op` can only be that of `op`. -/
theorem find?_opsizeTable (op : Byte) :
    (opsizeTable f h).find? (fun r => r.op == op) = some (OpsizeRow.ofFun f h op) := by
  cases hfind : (opsizeTable f h).find? (fun r => r.op == op) with
  | none =>
    have hno := List.find?_eq_none.mp hfind _ ((mem_opsizeTable f h).mpr ⟨op, rfl⟩)
    simp at hno
  | some row =>
    obtain ⟨op', rfl⟩ := (mem_opsizeTable f h).mp (List.mem_of_find?_eq_some hfind)
    have hop : op' = op := by simpa using List.find?_some hfind
    rw [hop]

end

/-- Settles O52: the table with a row for every opcode finds `f op` for each, so that the default
`(0, MAX_PAYLOAD)` is never used. -/
theorem everyOpsizeHasRows : Obligations.EveryOpsizeHasRows := fun f h =>
  ⟨opsizeTable f h, fun _ op => Config.opsize_of_find?_eq_some (row := .ofFun f h op)
    (find?_opsizeTable f h op)⟩

end Sys2Proof
end

/-! PROOFS. The state of the block (10_state.md): what one step does to the parameters, the events and `ACC`,
that it does not read `RES`, and that it leaves a record the block can hold. The layers are, in order: the decoder
said by equations, what the wire items do, the frame of `ACC`, the forms of a written record. -/

namespace Sys2Proof

/-! ### The payload bound and the structural check -/

/-- An accepted payload is at most `MAX_PAYLOAD` long (41_frame_encode.md R70). -/
theorem Config.length_le_maxPayload_of_accepts {c : Config} {op : Byte} {n : Nat}
    (h : c.accepts op n = true) : n ≤ c.maxPayload.val := by
  simp only [Config.accepts, Bool.not_eq_true', Bool.or_eq_false_iff, decide_eq_false_iff_not] at h
  obtain ⟨⟨hmax, -⟩, -⟩ := h
  omega

/-- The structural check never finds an unmapped status: that is the mapper's fault alone (R76, R92). -/
theorem frameCheck_ne_unmappedStatus (f : Word → Byte → Word) (s : Bytes) (min : Nat) :
    frameCheck f s min ≠ .unmappedStatus := by
  unfold frameCheck
  dsimp only
  split_ifs <;> simp

/-! ### The decoder, by equations -/

theorem decodeCommand_eq (c : Config) (s : Bytes) :
    decodeCommand c s =
      if frameCheck c.crcStep s minCommandCount = .none then
        .ok (.frameCmd (byteAt s 1) (byteAt s 2) (byteAt s 3) (byteAt s 4) (commandPayload s))
      else .error (.unsoundCommand (frameCheck c.crcStep s minCommandCount)) := by
  unfold decodeCommand
  split <;> simp_all

theorem decodeResponse_eq (c : Config) (s : Bytes) :
    decodeResponse c s =
      if s.length = 1 then .ok (.frameStatus (byteAt s 0))
      else if frameCheck c.crcStep s minResponseCount = .none then .ok (.frameRsp (responseData s))
      else .error (.unsoundResponse (frameCheck c.crcStep s minResponseCount)) := by
  unfold decodeResponse
  split
  · rfl
  · split <;> simp_all

/-- The only reason a request is no instruction is a reserved selector (30_encoding.md R42). -/
theorem decodeRequest_error {r : Request} {e : Reject} (h : decodeRequest r = .error e) :
    e = .reservedOpsel r.opsel := by
  unfold decodeRequest at h
  split at h <;> cases h
  rfl

/-- A request's sequence fits the port, so what it selects is well formed (30_encoding.md R39). -/
theorem decodeRequest_wf {r : Request} {i : Instr} (h : decodeRequest r = .ok i) : i.wf = true := by
  unfold decodeRequest at h
  split at h <;> cases h <;> simp [Instr.wf, maxData, r.data.le255]

/-- The selector of an operation (30_encoding.md R40); a status code and a wire format have none. -/
def Instr.opsel? : Instr → Option Byte
  | .crcClr => some 0x00
  | .crcSeed _ _ => some 0x01
  | .crcByte _ => some 0x02
  | .crcBuf _ => some 0x03
  | .crcRd => some 0x04
  | .encCmd _ _ _ _ _ => some 0x08
  | .decCmd _ => some 0x09
  | .decRsp _ => some 0x0A
  | .stMap _ => some 0x0B
  | _ => none

/-- A request selects the operation with its selector and no other. -/
theorem opsel?_of_decodeRequest {r : Request} {i : Instr} (h : decodeRequest r = .ok i) :
    i.opsel? = some r.opsel := by
  unfold decodeRequest at h
  split at h <;> cases h <;>
    · next hsel => exact congrArg some (BitVec.eq_of_toNat_eq hsel.symm)

/-! ### The instructions of the CRC unit -/

/-- One of the four instructions that write `ACC` (10_state.md R15). -/
def Instr.WritesAcc (i : Instr) : Prop :=
  i = .crcClr ∨ (∃ c0 c1, i = .crcSeed c0 c1) ∨ (∃ a, i = .crcByte a) ∨ ∃ d, i = .crcBuf d

/-- One of the five instructions of the CRC unit (40_crc.md, section 4). -/
def Instr.OfCrcUnit (i : Instr) : Prop :=
  i = .crcClr ∨ (∃ c0 c1, i = .crcSeed c0 c1) ∨ (∃ a, i = .crcByte a) ∨ (∃ d, i = .crcBuf d) ∨ i = .crcRd

theorem Instr.WritesAcc.opsel_mem {r : Request} {i : Instr} (hi : i.WritesAcc)
    (h : decodeRequest r = .ok i) : r.opsel ∈ [0x00, 0x01, 0x02, 0x03] := by
  have hsel := opsel?_of_decodeRequest h
  obtain rfl | ⟨c0, c1, rfl⟩ | ⟨a, rfl⟩ | ⟨d, rfl⟩ := hi <;> simp [← Option.some.inj hsel]

theorem Instr.OfCrcUnit.opsel_mem {r : Request} {i : Instr} (hi : i.OfCrcUnit)
    (h : decodeRequest r = .ok i) : r.opsel ∈ [0x00, 0x01, 0x02, 0x03, 0x04] := by
  have hsel := opsel?_of_decodeRequest h
  obtain rfl | ⟨c0, c1, rfl⟩ | ⟨a, rfl⟩ | ⟨d, rfl⟩ | rfl := hi <;> simp [← Option.some.inj hsel]

namespace Machine

/-! ### What the wire items do: each is the mapper or the decoder on the byte or sequence (log entry 5) -/

section WireItems
variable (c : Config) (acc : Word)

theorem issueRes_status (b : Byte) : issueRes c acc (.status b) = mapStatus b [] := by
  simp only [issueRes, decode, decodeStatus, mapStatus]
  cases outcomeOf b with
  | none => rfl
  | some code => cases code <;> rfl

theorem issueRes_command (f : ByteSeq) : issueRes c acc (.command f) = decCmdRes c f.bytes := by
  simp only [issueRes, decode, decodeCommand_eq, decCmdRes]
  split_ifs <;> rfl

theorem issueRes_response (f : ByteSeq) : issueRes c acc (.response f) = decRspRes c f.bytes := by
  simp only [issueRes, decode, decodeResponse_eq, decRspRes]
  split_ifs <;> rfl

theorem issueAcc_status (b : Byte) : issueAcc c acc (.status b) = acc := by
  simp only [issueAcc, decode, decodeStatus]
  cases outcomeOf b with
  | none => rfl
  | some code => cases code <;> rfl

theorem issueAcc_command (f : ByteSeq) : issueAcc c acc (.command f) = acc := by
  simp only [issueAcc, decode, decodeCommand_eq]
  split_ifs <;> rfl

theorem issueAcc_response (f : ByteSeq) : issueAcc c acc (.response f) = acc := by
  simp only [issueAcc, decode, decodeResponse_eq]
  split_ifs <;> rfl

end WireItems

/-! ### Outside the CRC unit `VAL` is 0 -/

@[simp] theorem mapStatus_val (b : Byte) (out : Bytes) : (mapStatus b out).val = 0 := by
  obtain ⟨code, -, h⟩ | ⟨-, h⟩ := mapStatus_cases b out <;> simp [h]

@[simp] theorem deliverCommand_val (opc p1 p2_0 p2_1 : Byte) (payload : Bytes) :
    (deliverCommand opc p1 p2_0 p2_1 payload).val = 0 := rfl

@[simp] theorem deliverResponse_val (c : Config) (data : Bytes) : (deliverResponse c data).val = 0 := by
  obtain ⟨-, -, h⟩ | ⟨-, h⟩ := deliverResponse_cases c data <;> simp [h]

@[simp] theorem decCmdRes_val (c : Config) (data : Bytes) : (decCmdRes c data).val = 0 := by
  unfold decCmdRes
  split_ifs <;> simp

@[simp] theorem decRspRes_val (c : Config) (data : Bytes) : (decRspRes c data).val = 0 := by
  unfold decRspRes
  split_ifs <;> simp

@[simp] theorem rejectRes_val (r : Reject) : (rejectRes r).val = 0 := by
  cases r <;> rfl

/-! ### The frame of `ACC` -/

theorem accAfter_eq_or_writesAcc (c : Config) (acc : Word) (i : Instr) :
    accAfter c acc i = acc ∨ i.WritesAcc := by
  cases i with
  | crcClr => exact .inr (.inl rfl)
  | crcSeed c0 c1 => exact .inr (.inr (.inl ⟨c0, c1, rfl⟩))
  | crcByte a => exact .inr (.inr (.inr (.inl ⟨a, rfl⟩)))
  | crcBuf d => exact .inr (.inr (.inr (.inr ⟨d, rfl⟩)))
  | _ => exact .inl rfl

/-- An instruction is one of the CRC unit, and its result is `ok` with the new `ACC` in `VAL`; or it leaves
`VAL` at 0, keeps `ACC` and has one result whatever `ACC` holds (R15, R17). -/
theorem resAfter_cases (c : Config) (acc : Word) (i : Instr) :
    (i.OfCrcUnit ∧ resAfter c acc i = Result.okRes .ok (val := accAfter c acc i)) ∨
    ((resAfter c acc i).val = 0 ∧ ∀ a, accAfter c a i = a ∧ resAfter c a i = resAfter c acc i) := by
  cases i with
  | crcClr => exact .inl ⟨.inl rfl, rfl⟩
  | crcSeed c0 c1 => exact .inl ⟨.inr (.inl ⟨c0, c1, rfl⟩), rfl⟩
  | crcByte a => exact .inl ⟨.inr (.inr (.inl ⟨a, rfl⟩)), rfl⟩
  | crcBuf d => exact .inl ⟨.inr (.inr (.inr (.inl ⟨d, rfl⟩))), rfl⟩
  | crcRd => exact .inl ⟨.inr (.inr (.inr (.inr rfl))), rfl⟩
  | encCmd a b c0 c1 data =>
    refine .inr ⟨?_, fun _ => ⟨rfl, rfl⟩⟩
    simp only [resAfter]
    split_ifs <;> rfl
  | _ => exact .inr ⟨by simp [resAfter], fun _ => ⟨rfl, rfl⟩⟩

/-- `ACC` is changed only by a request with one of the four selectors. -/
theorem issueAcc_eq_or_opsel (c : Config) (acc : Word) (w : Encoded) :
    issueAcc c acc w = acc ∨ ∃ r : Request, w = .request r ∧ r.opsel ∈ [0x00, 0x01, 0x02, 0x03] := by
  cases w with
  | status b => exact .inl (issueAcc_status c acc b)
  | command f => exact .inl (issueAcc_command c acc f)
  | response f => exact .inl (issueAcc_response c acc f)
  | request r =>
    simp only [issueAcc, decode]
    cases h : decodeRequest r with
    | error e => exact .inl rfl
    | ok i => exact (accAfter_eq_or_writesAcc c acc i).imp_right fun hi => ⟨r, rfl, hi.opsel_mem h⟩

/-- Whatever is issued is a request to the CRC unit, with the new `ACC` in `VAL`; or it leaves `VAL` at 0,
keeps `ACC` and has one result whatever `ACC` holds. -/
theorem issueRes_cases (c : Config) (acc : Word) (w : Encoded) :
    ((∃ r : Request, w = .request r ∧ r.opsel ∈ [0x00, 0x01, 0x02, 0x03, 0x04]) ∧
      (issueRes c acc w).val = issueAcc c acc w) ∨
    ((issueRes c acc w).val = 0 ∧ ∀ a, issueAcc c a w = a ∧ issueRes c a w = issueRes c acc w) := by
  cases w with
  | status b => exact .inr (by simp [issueRes_status, issueAcc_status])
  | command f => exact .inr (by simp [issueRes_command, issueAcc_command])
  | response f => exact .inr (by simp [issueRes_response, issueAcc_response])
  | request r =>
    simp only [issueRes, issueAcc, decode]
    cases h : decodeRequest r with
    | error e => exact .inr ⟨rejectRes_val e, fun _ => ⟨rfl, rfl⟩⟩
    | ok i =>
      exact (resAfter_cases c acc i).imp_left fun ⟨hi, hres⟩ => ⟨⟨r, rfl, hi.opsel_mem h⟩, by simp [hres]⟩

/-- `VAL` is 0 or the new `ACC` (R17). -/
theorem issueRes_val (c : Config) (acc : Word) (w : Encoded) :
    (issueRes c acc w).val = 0 ∨ (issueRes c acc w).val = issueAcc c acc w :=
  (issueRes_cases c acc w).elim (fun h => .inr h.2) (fun h => .inl h.1)

/-! ### The forms of a written record -/

/-- The forms in which the block writes `RES` in answer to something issued (R19, R20; 60_exceptions.md R97): a
Success with its data, the report of a listed status code, the refusal of an operation, a fault of a sequence, an
unlisted status byte. -/
inductive Result.Written : Result → Prop
  | success (val : Word) (opc p1 p2_0 p2_1 : Byte) (out : Bytes) (hout : out.length ≤ 255) :
    Written (.okRes .ok val opc p1 p2_0 p2_1 out)
  | status (code : StatusCode) (out : Bytes) (hout : out.length ≤ 1) : Written (.okRes code (out := out))
  | refused : Written (.errRes .parameterError .none 0x99)
  | unsound (reason : Reason) (hnone : reason ≠ .none) (hstatus : reason ≠ .unmappedStatus) :
    Written (.errRes .communicationError reason 0x00)
  | unlisted (b : Byte) (hb : outcomeOf b = none) : Written (.errRes .communicationError .unmappedStatus b)

theorem Result.Written.kind_ne_none {r : Result} (h : r.Written) : r.kind ≠ .none := by
  cases h with
  | status code => cases code <;> simp [kindOf]
  | _ => simp [kindOf]

/-- A record in one of the forms is one the block can hold. -/
theorem Result.Written.sound {r : Result} (h : r.Written) : r.sound = true := by
  cases h with
  | success val opc p1 p2_0 p2_1 out hout =>
    have hlen : out.length % 256 = out.length := by omega
    simp [Result.sound, kindOf, outcomeOf_byte, hlen]
  | status code out hout =>
    have hlen : out.length % 256 = out.length := by omega
    cases code <;> simp [Result.sound, kindOf, outcomeOf_byte, hlen, hout]
  | refused => decide
  | unsound reason hnone hstatus => simp [Result.sound, hnone, hstatus, Result.errRes]
  | unlisted b hb => simp [Result.sound, hb, Result.errRes]

theorem mapStatus_written (b : Byte) {out : Bytes} (hout : out.length ≤ 1) : (mapStatus b out).Written := by
  obtain ⟨code, -, h⟩ | ⟨hb, h⟩ := mapStatus_cases b out <;> rw [h]
  · exact .status code out hout
  · exact .unlisted b hb

theorem deliverResponse_written (c : Config) {data : Bytes} (hd : data.length ≤ 255) :
    (deliverResponse c data).Written := by
  obtain ⟨-, hlen, h⟩ | ⟨-, h⟩ := deliverResponse_cases c data <;> rw [h]
  · exact mapStatus_written _ hlen.le
  · exact .success _ _ _ _ _ data hd

theorem decCmdRes_written (c : Config) (data : Bytes) : (decCmdRes c data).Written := by
  unfold decCmdRes
  split_ifs with hsound
  · have := commandPayload_length hsound
    exact .success _ _ _ _ _ _ (by omega)
  · exact .unsound _ hsound (frameCheck_ne_unmappedStatus _ _ _)

theorem decRspRes_written (c : Config) (data : Bytes) : (decRspRes c data).Written := by
  unfold decRspRes
  split_ifs with hlen hsound
  · exact mapStatus_written _ (Nat.zero_le 1)
  · have := responseData_length hsound
    exact deliverResponse_written c (by omega)
  · exact .unsound _ hsound (frameCheck_ne_unmappedStatus _ _ _)

theorem resAfter_written (c : Config) (acc : Word) {i : Instr} (h : i.wf = true) :
    (resAfter c acc i).Written := by
  cases i with
  | encCmd a b c0 c1 data =>
    simp only [resAfter]
    split_ifs with hacc
    · have hle := Config.length_le_maxPayload_of_accepts hacc
      have hmax := c.maxPayload.isLt
      exact .success _ _ _ _ _ _ (by rw [commandFrame_length]; omega)
    · exact .refused
  | decCmd data => exact decCmdRes_written c data
  | decRsp data => exact decRspRes_written c data
  | stMap b => exact mapStatus_written b (Nat.zero_le 1)
  | frameStatus b => exact mapStatus_written b (Nat.zero_le 1)
  | frameCmd op p1 q0 q1 payload =>
    have hlen : payload.length ≤ 248 := of_decide_eq_true h
    exact .success _ _ _ _ _ payload (by omega)
  | frameRsp data =>
    have hlen : data.length ≤ 252 := of_decide_eq_true h
    exact deliverResponse_written c (by omega)
  | statusOk | statusCheckMacFail | statusExecError | statusReady | statusPaddingError | statusBadParameters =>
    exact .status _ [] (Nat.zero_le 1)
  | crcClr | crcSeed | crcByte | crcBuf | crcRd => exact .success _ _ _ _ _ [] (Nat.zero_le 255)

/-- Whatever is issued, its result is in one of the forms. -/
theorem issueRes_written (c : Config) (acc : Word) (w : Encoded) : (issueRes c acc w).Written := by
  cases w with
  | status b => rw [issueRes_status]; exact mapStatus_written b (Nat.zero_le 1)
  | command f => rw [issueRes_command]; exact decCmdRes_written c f.bytes
  | response f => rw [issueRes_response]; exact decRspRes_written c f.bytes
  | request r =>
    simp only [issueRes, decode]
    cases h : decodeRequest r with
    | error e => rw [decodeRequest_error h]; exact .refused
    | ok i => exact resAfter_written c acc (decodeRequest_wf h)

theorem Result.len_of_sound {r : Result} (h : r.sound = true) : r.len.toNat = r.out.length := by
  simp only [Result.sound, Bool.and_eq_true, decide_eq_true_eq] at h
  obtain ⟨⟨hlen, -⟩, -⟩ := h
  exact hlen

/-! ### One step -/

theorem step_of_events_nil {s : State} (h : s.events = []) : step s = .next s := by
  simp only [step, takeEvent, h]

theorem step_of_events_cons {s : State} {e : Event} {rest : List Event} (h : s.events = e :: rest) :
    step s = perform e { s with events := rest } := by
  simp only [step, takeEvent, h]

theorem perform_issue_of_decode {s : State} {w : Encoded} {i : Instr} (h : decode s.cfg w = .ok i) :
    perform (.issue w) s = exec i s := by
  simp only [perform, h]

theorem State.inv_iff {s : State} :
    s.inv = true ↔ s.res.sound = true ∧ (s.res.val = 0 ∨ s.res.val = s.acc) := by
  simp [State.inv]

/-- The record after reset is one the block can hold (R25). -/
theorem Result.reset_sound : Result.reset.sound = true := by decide

end Machine

/-! ### The statements -/

open Machine

/-- Settles O49: by the three things a step can do. An idle step keeps the state, a reset writes the empty record,
and whatever is issued writes one of the forms of `Result.Written`. -/
theorem stepKeepsInvariant : Obligations.StepKeepsInvariant := by
  intro s t hs hstep
  obtain ⟨-, h⟩ | ⟨rest, -, h⟩ | ⟨w, rest, -, h⟩ := step_cases s <;> rw [h] at hstep <;> cases hstep
  · exact hs
  · exact State.inv_iff.2 ⟨Result.reset_sound, .inl rfl⟩
  · exact State.inv_iff.2 ⟨(issueRes_written s.cfg s.acc w).sound, issueRes_val s.cfg s.acc w⟩

/-- Settles O44: by what an issued item does to `ACC` and how its result depends on it. -/
theorem accWrittenByFourOperations : Obligations.AccWrittenByFourOperations := by
  refine ⟨fun s t w h hne => ?_, fun s w a hw => ?_, fun s c0 c1 a d => ?_⟩
  · rw [perform_issue_eq] at h
    cases h
    exact (issueAcc_eq_or_opsel s.cfg s.acc w).resolve_left hne
  · obtain ⟨⟨r, hr, hmem⟩, -⟩ | ⟨-, hacc⟩ := issueRes_cases s.cfg s.acc w
    · exact absurd hmem (hw r hr)
    · refine ⟨_, perform_issue_eq w s, (hacc s.acc).1, ?_⟩
      rw [perform_issue_eq]
      simp only [(hacc a).1, (hacc a).2]
  · exact ⟨⟨_, exec_eq _ s, rfl⟩, ⟨_, exec_eq _ s, rfl⟩, ⟨_, exec_eq _ s, rfl⟩, ⟨_, exec_eq _ s, rfl⟩,
      ⟨_, exec_eq _ s, rfl, rfl⟩⟩

/-- Settles O45: an instruction writes `ACC` and `RES` and nothing else, and `VAL` follows `ACC` in the CRC unit
only. -/
theorem instructionFrame : Obligations.InstructionFrame := by
  intro i s t h
  rw [exec_eq] at h
  cases h
  refine ⟨rfl, rfl, accAfter_eq_or_writesAcc s.cfg s.acc i, ?_⟩
  obtain ⟨hi, hres⟩ | ⟨hval, hacc⟩ := resAfter_cases s.cfg s.acc i
  · exact .inr ⟨hi, by simp [hres, kindOf, StatusCode.byte]⟩
  · exact .inl ⟨hval, (hacc s.acc).1⟩

/-- Settles O46: by the three things a step can do. -/
theorem parametersNeverChange : Obligations.ParametersNeverChange := by
  intro s t hstep
  obtain ⟨he, h⟩ | ⟨rest, he, h⟩ | ⟨w, rest, he, h⟩ := step_cases s <;> rw [h] at hstep <;> cases hstep
  all_goals exact ⟨rfl, by simp [he]⟩

/-- Settles O47: what something issued does is a function of the parameters and `ACC`, and it writes all of
`RES`. -/
theorem oldResultIrrelevant : Obligations.OldResultIrrelevant := by
  intro s old w rest h
  rw [step_of_events_cons h, step_of_events_cons (s := { s with res := old }) h, perform_issue_eq, perform_issue_eq]

/-- Settles O51: the result of whatever is issued is in one of the forms of `Result.Written`. -/
theorem everyResultIsSound : Obligations.EveryResultIsSound := by
  intro s t w h
  rw [perform_issue_eq] at h
  cases h
  have hw := issueRes_written s.cfg s.acc w
  exact ⟨hw.sound, Result.len_of_sound hw.sound, hw.kind_ne_none⟩

/-- Settles O8. -/
theorem stepRunsDecodedInstruction : Obligations.StepRunsDecodedInstruction :=
  ⟨fun _ _ _ h => step_of_events_cons h, fun _ h => step_of_events_nil h,
    fun _ _ _ _ h hi => (step_of_events_cons h).trans (perform_issue_of_decode hi)⟩

/-- Settles O11: each register holds its reset value by definition. -/
theorem resetValues : Obligations.ResetValues :=
  ⟨rfl, rfl, rfl, rfl, rfl, rfl, rfl, rfl, rfl, rfl, rfl⟩

/-- Settles O50. -/
theorem resetHasInvariant : Obligations.ResetHasInvariant :=
  State.inv_iff.2 ⟨Result.reset_sound, .inl rfl⟩

end Sys2Proof

/-! PROOFS. Repeated accesses (20_memory.md R34): only the two instructions that feed bytes to `ACC` do something
more when they are performed again. -/

namespace Sys2Proof

/-- One of the two instructions that feed bytes to `ACC` (40_crc.md R65, R66). -/
def Instr.FeedsAcc (i : Instr) : Prop :=
  (∃ a, i = .crcByte a) ∨ ∃ d, i = .crcBuf d

theorem Instr.FeedsAcc.opsel_mem {r : Request} {i : Instr} (hi : i.FeedsAcc)
    (h : decodeRequest r = .ok i) : r.opsel ∈ [0x02, 0x03] := by
  have hsel := opsel?_of_decodeRequest h
  obtain ⟨a, rfl⟩ | ⟨d, rfl⟩ := hi <;> simp [← Option.some.inj hsel]

theorem decodeRequest_crcByte {r : Request} (h : r.opsel = 0x02) : decodeRequest r = .ok (.crcByte r.a) := by
  simp [decodeRequest, h]

theorem decodeRequest_crcBuf {r : Request} (h : r.opsel = 0x03) :
    decodeRequest r = .ok (.crcBuf r.data.bytes) := by
  simp [decodeRequest, h]

theorem Config.standard_crcStep : Config.standard.crcStep = crcStepR62 := rfl

/-- Under the default `CRC_STEP`, from `ACC = 0`, a repeated byte 0x01 changes `ACC` again. -/
theorem crcStepR62_repeat_ne : crcStepR62 (crcStepR62 0x0000 0x01) 0x01 ≠ crcStepR62 0x0000 0x01 := by
  have hfirst : crcStepR62 0x0000 0x01 = 0x8303 := by decide
  have hsecond : crcStepR62 0x8303 0x01 = 0x030A := by decide
  rw [hfirst, hsecond]
  decide

namespace Machine

section Repeat
variable (c : Config) (acc : Word)

/-- An instruction feeds bytes to `ACC`, or does the same from the `ACC` it has left. -/
theorem feedsAcc_or_after_repeat (i : Instr) :
    i.FeedsAcc ∨ (accAfter c (accAfter c acc i) i = accAfter c acc i ∧
      resAfter c (accAfter c acc i) i = resAfter c acc i) := by
  cases i with
  | crcByte a => exact .inl (.inl ⟨a, rfl⟩)
  | crcBuf d => exact .inl (.inr ⟨d, rfl⟩)
  | _ => exact .inr ⟨rfl, rfl⟩

/-- Anything but a `CRC.BYTE` or `CRC.BUF` request does the same from the `ACC` it has left. -/
theorem issue_repeat {w : Encoded} (hw : ∀ r : Request, w = .request r → r.opsel ∉ [0x02, 0x03]) :
    issueAcc c (issueAcc c acc w) w = issueAcc c acc w ∧
      issueRes c (issueAcc c acc w) w = issueRes c acc w := by
  obtain ⟨⟨r, rfl, -⟩, -⟩ | ⟨-, hany⟩ := issueRes_cases c acc w
  · simp only [issueAcc, issueRes, decode]
    cases h : decodeRequest r with
    | error e => exact ⟨rfl, rfl⟩
    | ok i => exact (feedsAcc_or_after_repeat c acc i).resolve_left fun hi => hw r rfl (hi.opsel_mem h)
  · exact hany _

theorem issueAcc_crcByte {r : Request} (h : r.opsel = 0x02) :
    issueAcc c acc (.request r) = c.crcStep acc r.a := by
  simp only [issueAcc, decode, decodeRequest_crcByte h, accAfter]

theorem issueAcc_crcBuf {r : Request} (h : r.opsel = 0x03) :
    issueAcc c acc (.request r) = crc16 c.crcStep r.data.bytes acc := by
  simp only [issueAcc, decode, decodeRequest_crcBuf h, accAfter]

end Repeat

/-- Something that changes `ACC` again leaves another state the second time. -/
theorem perform_issue_repeat_ne {s : State} {w : Encoded}
    (h : issueAcc s.cfg (issueAcc s.cfg s.acc w) w ≠ issueAcc s.cfg s.acc w) :
    ∃ t u, perform (.issue w) s = .next t ∧ perform (.issue w) t = .next u ∧ u ≠ t :=
  ⟨_, _, perform_issue_eq w s, perform_issue_eq w _, fun hut => h (congrArg State.acc hut)⟩

theorem perform_crcByte_repeat_ne {s : State} {r : Request} (hr : r.opsel = 0x02)
    (h : s.cfg.crcStep (s.cfg.crcStep s.acc r.a) r.a ≠ s.cfg.crcStep s.acc r.a) :
    ∃ t u, perform (.issue (.request r)) s = .next t ∧ perform (.issue (.request r)) t = .next u ∧ u ≠ t :=
  perform_issue_repeat_ne (by simpa only [issueAcc_crcByte _ _ hr] using h)

theorem perform_crcBuf_repeat_ne {s : State} {r : Request} (hr : r.opsel = 0x03)
    (h : crc16 s.cfg.crcStep r.data.bytes (crc16 s.cfg.crcStep r.data.bytes s.acc) ≠
      crc16 s.cfg.crcStep r.data.bytes s.acc) :
    ∃ t u, perform (.issue (.request r)) s = .next t ∧ perform (.issue (.request r)) t = .next u ∧ u ≠ t :=
  perform_issue_repeat_ne (by simpa only [issueAcc_crcBuf _ _ hr] using h)

end Machine

open Machine

/-- Settles O48: by what an issued item does from the `ACC` it has left. From the reset state `CRC.BYTE 0x01` and
`CRC.BUF` of that one byte leave another `ACC` the second time (`crcStepR62_repeat_ne`). -/
theorem repeatingRequestIsIdempotent : Obligations.RepeatingRequestIsIdempotent := by
  refine ⟨fun s t w hw h => ?_, fun s r hr => ?_, fun s r hr => ?_, ?_, ?_⟩
  · rw [perform_issue_eq] at h
    cases h
    obtain ⟨hacc, hres⟩ := issue_repeat s.cfg s.acc hw
    simp only [perform_issue_eq, hacc, hres]
  · refine ⟨_, _, perform_issue_eq _ s, perform_issue_eq _ _, ?_⟩
    simp only [issueAcc_crcByte _ _ hr]
  · refine ⟨_, _, perform_issue_eq _ s, perform_issue_eq _ _, ?_⟩
    simp only [issueAcc_crcBuf _ _ hr, crc16_append]
  · obtain ⟨t, u, ht, hu, hne⟩ := perform_crcByte_repeat_ne (s := State.reset)
      (r := { Request.blank 0x02 with a := 0x01 }) rfl
      (by simpa only [reset_cfg, reset_acc, Config.standard_crcStep] using crcStepR62_repeat_ne)
    exact ⟨State.reset, t, u, _, rfl, ht, hu, hne⟩
  · obtain ⟨t, u, ht, hu, hne⟩ := perform_crcBuf_repeat_ne (s := State.reset)
      (r := { Request.blank 0x03 with data := ⟨[0x01], by decide⟩ }) rfl
      (by simpa only [crc16_cons, crc16_nil, reset_cfg, reset_acc, Config.standard_crcStep]
        using crcStepR62_repeat_ne)
    exact ⟨State.reset, t, u, _, rfl, ht, hu, hne⟩

end Sys2Proof

/-! PROOFS. Encodings (30_encoding.md): that decoding and encoding are inverse to each other, which fields of a
request are read, and what the wire formats, the assembler's lines and the two host procedures do. The layers are,
in order: requests and their selectors, the byte sequences of the port, the two frame layouts; after the statements
on decoding, the results of the wire formats and the host procedures with the statements on them. -/

namespace Sys2Proof

open Machine

/-! ### Requests and their selectors (R39 to R42) -/

/-- The selector of an operation is one of nine (R40). -/
theorem Instr.opsel?_mem {i : Instr} {b : Byte} (h : i.opsel? = some b) :
    b ∈ [0x00, 0x01, 0x02, 0x03, 0x04, 0x08, 0x09, 0x0A, 0x0B] := by
  cases i <;> cases h <;> decide

/-- Any other selector is reserved (R42): a request that selected an operation would have its selector. -/
theorem decodeRequest_reserved {r : Request}
    (h : r.opsel ∉ [0x00, 0x01, 0x02, 0x03, 0x04, 0x08, 0x09, 0x0A, 0x0B]) :
    decodeRequest r = .error (.reservedOpsel r.opsel) := by
  cases hr : decodeRequest r with
  | ok i => exact absurd (Instr.opsel?_mem (opsel?_of_decodeRequest hr)) h
  | error e => rw [decodeRequest_error hr]

/-- The two ranges of R42 hold no selector of an operation. -/
theorem opsel_notMem_of_reserved {b : Byte}
    (h : (0x05 ≤ b.toNat ∧ b.toNat ≤ 0x07) ∨ (0x0C ≤ b.toNat ∧ b.toNat ≤ 0xFF)) :
    b ∉ [0x00, 0x01, 0x02, 0x03, 0x04, 0x08, 0x09, 0x0A, 0x0B] := by
  revert b
  decide

/-- Requests with one selector that agree on the fields R40 lists for it select the same (R41). -/
theorem decodeRequest_congr {r r' : Request} (hsel : r.opsel = r'.opsel)
    (hc : r.opsel ∈ [0x01, 0x08] → r.c0 = r'.c0 ∧ r.c1 = r'.c1)
    (ha : r.opsel ∈ [0x02, 0x08, 0x0B] → r.a = r'.a) (hb : r.opsel = 0x08 → r.b = r'.b)
    (hd : r.opsel ∈ [0x03, 0x08, 0x09, 0x0A] → r.data = r'.data) : decodeRequest r = decodeRequest r' := by
  by_cases hop : r.opsel ∈ [0x00, 0x01, 0x02, 0x03, 0x04, 0x08, 0x09, 0x0A, 0x0B]
  · simp only [List.mem_cons, List.not_mem_nil, or_false] at hop
    rcases hop with h | h | h | h | h | h | h | h | h <;>
      simp_all [decodeRequest, ← hsel]
  · rw [decodeRequest_reserved hop, decodeRequest_reserved (hsel ▸ hop), hsel]

/-! ### The byte sequences of the port (R39) -/

/-- A sequence the port holds is carried as it is. -/
@[simp] theorem ByteSeq.ofBytes_bytes_self (d : ByteSeq) : ByteSeq.ofBytes d.bytes = d := by
  obtain ⟨bytes, hle⟩ := d
  simp [ByteSeq.ofBytes, hle]

/-- A request that selects an operation is the operation's encoding, less the fields that are not read. -/
theorem encode_of_decodeRequest (c : Config) {r : Request} {i : Instr} (h : decodeRequest r = .ok i) :
    encode c i = .request r.readPart := by
  have hsel := opsel?_of_decodeRequest h
  obtain ⟨opsel, a, b, c0, c1, d⟩ := r
  unfold decodeRequest at h
  split at h <;> cases h <;> obtain rfl := Option.some.inj hsel <;>
    simp only [encode, ByteSeq.ofBytes_bytes_self] <;> rfl

/-! ### Status codes (R50, R51) -/

/-- A listed byte is the encoding of the row it stands for. -/
theorem encode_of_decodeStatus (c : Config) {b : Byte} {i : Instr} (h : decodeStatus b = .ok i) :
    i.wf = true ∧ encode c i = .status b := by
  unfold decodeStatus at h
  cases hb : outcomeOf b with
  | none => simp [hb] at h
  | some code =>
    rw [hb] at h
    rw [byte_of_outcomeOf hb]
    cases code <;> cases h <;> exact ⟨rfl, rfl⟩

/-! ### The two frame layouts (R43 to R47) -/

theorem exists_five_cons {s : Bytes} (h : 5 ≤ s.length) :
    ∃ b₀ b₁ b₂ b₃ b₄ t, s = b₀ :: b₁ :: b₂ :: b₃ :: b₄ :: t := by
  match s with
  | b₀ :: b₁ :: b₂ :: b₃ :: b₄ :: t => exact ⟨b₀, b₁, b₂, b₃, b₄, t, rfl⟩
  | [] | [_] | [_, _] | [_, _, _] | [_, _, _, _] => simp at h

/-- A sound command frame is the layout of the fields read from it: they determine every byte. -/
theorem commandFrame_of_frameCheck {f : Word → Byte → Word} {s : Bytes}
    (h : frameCheck f s minCommandCount = .none) :
    commandFrame f (byteAt s 1) (byteAt s 2) (byteAt s 3) (byteAt s 4) (commandPayload s) = s := by
  obtain ⟨hpay, hmin, -⟩ := commandPayload_length h
  obtain ⟨hcount, -, hcrc⟩ := (frameCheck_none_iff f s (by decide)).1 h
  have hbody : [BitVec.ofNat 8 (7 + (commandPayload s).length), byteAt s 1, byteAt s 2, byteAt s 3, byteAt s 4]
      ++ commandPayload s = s.take (s.length - 2) := by
    have hn : 7 + (commandPayload s).length = (byteAt s 0).toNat := by omega
    rw [hn, BitVec.ofNat_toNat, BitVec.setWidth_eq, commandPayload, ← hcount]
    obtain ⟨n, op, p1, q0, q1, t, rfl⟩ := exists_five_cons (Nat.le_trans (by decide) hmin)
    obtain ⟨m, hm⟩ := Nat.exists_eq_add_of_le' (show 2 ≤ t.length by simpa using hmin)
    simp [byteAt, slice, hm]
  rw [commandFrame, hbody]
  exact hcrc.symm

/-- A sound framed response is the layout of its data. -/
theorem responseFrame_of_frameCheck {f : Word → Byte → Word} {s : Bytes}
    (h : frameCheck f s minResponseCount = .none) : responseFrame f (responseData s) = s := by
  obtain ⟨hdata, hmin, -⟩ := responseData_length h
  obtain ⟨hcount, -, hcrc⟩ := (frameCheck_none_iff f s (by decide)).1 h
  have hbody : BitVec.ofNat 8 (3 + (responseData s).length) :: responseData s = s.take (s.length - 2) := by
    have hn : 3 + (responseData s).length = (byteAt s 0).toNat := by omega
    rw [hn, BitVec.ofNat_toNat, BitVec.setWidth_eq, responseData, ← hcount]
    obtain ⟨n, t, rfl⟩ := List.exists_cons_of_length_pos (Nat.lt_of_lt_of_le (by decide) hmin)
    obtain ⟨m, hm⟩ := Nat.exists_eq_add_of_le' (show 2 ≤ t.length by simpa using hmin)
    simp [byteAt, slice, hm]
  rw [responseFrame, hbody]
  exact hcrc.symm

/-- The layout of a command frame decodes to the frame's fields. -/
theorem decodeCommand_commandFrame (c : Config) (op p1 q0 q1 : Byte) {d : Bytes} (hd : d.length ≤ 248) :
    decodeCommand c (commandFrame c.crcStep op p1 q0 q1 d) = .ok (.frameCmd op p1 q0 q1 d) := by
  obtain ⟨-, hop, hp1, hq0, hq1⟩ := commandFrame_fields c.crcStep op p1 q0 q1 d
  rw [decodeCommand_eq, if_pos (frameCheck_commandFrame _ op p1 q0 q1 hd), hop, hp1, hq0, hq1,
    commandPayload_commandFrame _ op p1 q0 q1 hd]

/-- A framed response has at least three bytes, so it is not read as a bare status (R49). -/
theorem responseFrame_length_ne_one (f : Word → Byte → Word) (d : Bytes) : (responseFrame f d).length ≠ 1 := by
  rw [responseFrame_length]
  omega

/-- The layout of a framed response decodes to its data. -/
theorem decodeResponse_responseFrame (c : Config) {d : Bytes} (hd : d.length ≤ 252) :
    decodeResponse c (responseFrame c.crcStep d) = .ok (.frameRsp d) := by
  rw [decodeResponse_eq, if_neg (responseFrame_length_ne_one _ d), if_pos (frameCheck_responseFrame _ hd),
    responseData_responseFrame _ hd]

/-- What decodes as a command frame is the encoding of its fields, and the payload fits the count byte (R44). -/
theorem encode_of_decodeCommand (c : Config) {s : ByteSeq} {i : Instr} (h : decodeCommand c s.bytes = .ok i) :
    i.wf = true ∧ encode c i = .command s := by
  rw [decodeCommand_eq] at h
  split_ifs at h with hcheck
  cases h
  obtain ⟨hpay, -, hmax⟩ := commandPayload_length hcheck
  refine ⟨decide_eq_true (by rw [hpay, maxCommandPayload]; omega), ?_⟩
  rw [encode, commandFrame_of_frameCheck hcheck, ByteSeq.ofBytes_bytes_self]

/-- What decodes as a response is the encoding of its status byte or of its data (R47 to R49). -/
theorem encode_of_decodeResponse (c : Config) {s : ByteSeq} {i : Instr} (h : decodeResponse c s.bytes = .ok i) :
    i.wf = true ∧ encode c i = .response s := by
  rw [decodeResponse_eq] at h
  split_ifs at h with hone hcheck <;> cases h
  · obtain ⟨b, hb⟩ := List.length_eq_one_iff.1 hone
    refine ⟨rfl, ?_⟩
    rw [encode, ← ByteSeq.ofBytes_bytes_self s, hb]
    rfl
  · obtain ⟨hdata, -, hmax⟩ := responseData_length hcheck
    refine ⟨decide_eq_true (by rw [hdata, maxResponseData]; omega), ?_⟩
    rw [encode, responseFrame_of_frameCheck hcheck, ByteSeq.ofBytes_bytes_self]

/-! ### The statements on decoding and encoding -/

/-- Settles O5: by cases on the instruction. A request carries its operand's bytes whole (`Laws.EncodeFits`), a
status byte is listed, and a frame's layout decodes to its fields. -/
theorem decodeOfEncode : Obligations.DecodeOfEncode := by
  intro c i hwf
  cases i with
  | crcBuf data => exact congrArg (fun d => Except.ok (Instr.crcBuf d)) (Laws.EncodeFits.crcBuf data hwf c)
  | encCmd a b c0 c1 data =>
    exact congrArg (fun d => Except.ok (Instr.encCmd a b c0 c1 d)) (Laws.EncodeFits.encCmd a b c0 c1 data hwf c)
  | decCmd data => exact congrArg (fun d => Except.ok (Instr.decCmd d)) (Laws.EncodeFits.decCmd data hwf c)
  | decRsp data => exact congrArg (fun d => Except.ok (Instr.decRsp d)) (Laws.EncodeFits.decRsp data hwf c)
  | frameCmd op p1 q0 q1 d =>
    exact (congrArg (decodeCommand c) (Laws.EncodeFits.frameCmd op p1 q0 q1 d hwf c)).trans
      (decodeCommand_commandFrame c op p1 q0 q1 (of_decide_eq_true hwf))
  | frameRsp d =>
    exact (congrArg (decodeResponse c) (Laws.EncodeFits.frameRsp d hwf c)).trans
      (decodeResponse_responseFrame c (of_decide_eq_true hwf))
  | _ => rfl

/-- Settles O6: by what was handed in. Each part of the decoder accepts only encodings; for the frames, because a
sound sequence is its body and the CRC field of that body. -/
theorem encodeOfDecode : Obligations.EncodeOfDecode := by
  intro c w i h
  cases w with
  | request r => exact ⟨decodeRequest_wf h, encode_of_decodeRequest c h⟩
  | status b => exact encode_of_decodeStatus c h
  | command s => exact encode_of_decodeCommand c h
  | response s => exact encode_of_decodeResponse c h

/-- Settles O3: a reserved selector is rejected, and the reject's result is R42's. -/
theorem reservedSelectorResult : Obligations.ReservedSelectorResult := by
  intro s r h
  have hdec := decodeRequest_reserved (opsel_notMem_of_reserved h)
  simp only [perform, decode, hdec, takeReject_eq]
  rfl

/-- Settles O4: the operation selected is given by the fields listed; the seed by `exec_eq`. -/
theorem unlistedFieldsIgnored : Obligations.UnlistedFieldsIgnored := by
  refine ⟨fun s r r' hsel hc ha hb hd => ?_, fun s c0 c1 => ⟨_, exec_eq _ s, rfl⟩⟩
  simp only [perform, decode, decodeRequest_congr hsel hc ha hb hd]

/-- Settles O15: the request selects the mapper or the decoder on the item's own byte or sequence. -/
theorem wireItemsAreRequests : Obligations.WireItemsAreRequests := by
  intro w s
  rw [perform_issue_eq, perform_issue_eq]
  cases w with
  | request r => rfl
  | status b => rw [issueAcc_status, issueRes_status]; rfl
  | command f => rw [issueAcc_command, issueRes_command]; rfl
  | response f => rw [issueAcc_response, issueRes_response]; rfl

/-- Settles O1: by the selector, and for the others because no operation has them. -/
theorem selectorSelectsOperation : Obligations.SelectorSelectsOperation := by
  intro r
  refine ⟨?_, ?_, ?_, ?_, ?_, ?_, ?_, ?_, ?_, decodeRequest_reserved⟩ <;>
    · intro h
      simp only [decodeRequest, h]
      rfl

/-! The frames V-E1, V-E3 and V-P22 of 95_test_vectors.md are the layouts of their fields under the default
`CRC_STEP`. -/

theorem commandFrame_vE1 : commandFrame Config.standard.crcStep 0x30 0x00 0x00 0x00 [] =
    [0x07, 0x30, 0x00, 0x00, 0x00, 0x03, 0x5D] := by
  simp [Config.standard_crcStep, commandFrame, crcField, crcStepR62, crcBit, List.range_succ, loByte, hiByte]

theorem commandFrame_vE3 :
    commandFrame Config.standard.crcStep 0x12 0x00 0x05 0x00 [0x11, 0x22, 0x33, 0x44] =
      [0x0B, 0x12, 0x00, 0x05, 0x00, 0x11, 0x22, 0x33, 0x44, 0xA2, 0x42] := by
  simp [Config.standard_crcStep, commandFrame, crcField, crcStepR62, crcBit, List.range_succ, loByte, hiByte]

theorem responseFrame_vP22 : responseFrame Config.standard.crcStep [0xDE, 0xAD, 0xBE, 0xEF] =
    [0x07, 0xDE, 0xAD, 0xBE, 0xEF, 0xA4, 0x74] := by
  simp [Config.standard_crcStep, responseFrame, crcField, crcStepR62, crcBit, List.range_succ, loByte, hiByte]

/-- Settles O2: the table words are computed, and a frame decodes to the fields it is the layout of. -/
theorem writtenWordsDecode : Obligations.WrittenWordsDecode := by
  have hvE1 := decodeCommand_commandFrame Config.standard 0x30 0x00 0x00 0x00 (d := []) (by decide)
  have hvE3 := decodeCommand_commandFrame Config.standard 0x12 0x00 0x05 0x00
    (d := [0x11, 0x22, 0x33, 0x44]) (by decide)
  have hvP22 := decodeResponse_responseFrame Config.standard (d := [0xDE, 0xAD, 0xBE, 0xEF]) (by decide)
  rw [commandFrame_vE1] at hvE1
  rw [commandFrame_vE3] at hvE3
  rw [responseFrame_vP22] at hvP22
  refine ⟨?_, ?_, ?_, ?_, ?_, ?_, ?_, hvE1, hvE3, hvP22, rfl⟩ <;> decide

/-- Settles O7: a line's fields are those of its request by definition; the sequence is carried whole. -/
theorem assemblerLineRequests : Obligations.AssemblerLineRequests := by
  intro c v b op p1 q0 q1 d
  refine ⟨rfl, rfl, rfl, ?_, rfl, ?_, ?_, ?_, rfl⟩ <;>
    simp only [AsmLine.assemble, AsmLine.instrs, List.map_cons, List.map_nil, encode, ByteSeq.ofBytes_bytes_self] <;>
    rfl

namespace Machine

/-! ### The results of the wire formats -/

/-- The record of a listed status byte (43_status_map.md R90, R91): the code's own byte is the byte mapped. -/
theorem mapStatus_listed_record {b : Byte} {code : StatusCode} (h : outcomeOf b = some code) (out : Bytes) :
    mapStatus b out = { Result.reset with
      kind := kindOf code, status := b, len := BitVec.ofNat 8 out.length, out := out } := by
  rw [mapStatus_listed h, byte_of_outcomeOf h]
  rfl

/-- The record of an unlisted status byte (43_status_map.md R92). -/
theorem mapStatus_unlisted_record {b : Byte} (h : outcomeOf b = none) (out : Bytes) :
    mapStatus b out =
      { Result.reset with kind := .communicationError, reason := .unmappedStatus, status := b } := by
  rw [mapStatus_unlisted h]
  rfl

theorem deliverResponse_data {c : Config} {d : Bytes} (h : c.framedStatus = false ∨ d.length ≠ 1) :
    deliverResponse c d = Result.okRes .ok (out := d) := by
  obtain ⟨hf, hl, -⟩ | ⟨-, hd⟩ := deliverResponse_cases c d
  · simp [hf, hl] at h
  · exact hd

theorem deliverResponse_status {c : Config} (h : c.framedStatus = true) (b : Byte) :
    deliverResponse c [b] = mapStatus b [b] := by
  obtain ⟨-, -, hd⟩ | ⟨hf, -⟩ := deliverResponse_cases c [b]
  · exact hd
  · simp [h] at hf

/-- `DEC.CMD` of what decodes as a command frame has the result of the frame's instruction (log entry 5). -/
theorem decCmdRes_of_decodeCommand {c : Config} {s : Bytes} {i : Instr} (h : decodeCommand c s = .ok i)
    (acc : Word) : decCmdRes c s = resAfter c acc i := by
  rw [decodeCommand_eq] at h
  split_ifs at h with hcheck
  cases h
  exact if_pos hcheck

/-- `DEC.RSP` of what decodes as a response has the result of the response's instruction (log entry 5). -/
theorem decRspRes_of_decodeResponse {c : Config} {s : Bytes} {i : Instr} (h : decodeResponse c s = .ok i)
    (acc : Word) : decRspRes c s = resAfter c acc i := by
  rw [decodeResponse_eq] at h
  split_ifs at h with hone hcheck <;> cases h
  · exact if_pos hone
  · exact (if_neg hone).trans (if_pos hcheck)

theorem decRspRes_singleton (c : Config) (b : Byte) : decRspRes c [b] = mapStatus b [] := rfl

theorem decRspRes_nil (c : Config) : decRspRes c [] = Result.errRes .communicationError .empty 0x00 := rfl

/-! ### The host procedures (R55) -/

theorem performAll_cons {e : Event} {s t : State} (h : perform e s = .next t) (es : List Event) :
    performAll (e :: es) s = performAll es t := by
  simp only [performAll, h]

/-- Performing the encoding of an instruction performs the instruction. -/
theorem perform_encode {s : State} {i : Instr} (h : i.wf = true) :
    perform (.issue (encode s.cfg i)) s = exec i s :=
  perform_issue_of_decode (decodeOfEncode s.cfg i h)

/-- The events of `CRC.BUF` for each of a list of pieces. -/
def crcBufEvents (c : Config) (ps : List Bytes) : List Event :=
  (ps.map .crcBuf).map fun i => .issue (encode c i)

/-- `CRC.BUF` of pieces in order leaves in `ACC` the fold over their concatenation (40_crc.md R66). -/
theorem performAll_crcBufEvents (es : List Event) {ps : List Bytes} (h : ∀ p ∈ ps, p.length ≤ 255) (s : State) :
    ∃ res, performAll (crcBufEvents s.cfg ps ++ es) s =
      performAll es { s with acc := crc16 s.cfg.crcStep ps.flatten s.acc, res := res } := by
  induction ps generalizing s with
  | nil => exact ⟨s.res, rfl⟩
  | cons p ps ih =>
    have hwf : (Instr.crcBuf p).wf = true := decide_eq_true (h p List.mem_cons_self)
    have hp := (perform_encode hwf).trans (exec_eq (.crcBuf p) s)
    obtain ⟨res, hres⟩ := ih (fun q hq => h q (List.mem_cons_of_mem p hq))
      { s with acc := crc16 s.cfg.crcStep p s.acc, res := resAfter s.cfg s.acc (.crcBuf p) }
    refine ⟨res, (performAll_cons hp _).trans (hres.trans ?_)⟩
    rw [List.flatten_cons, crc16_append]

/-- The events of `CRC16`: the seed, the pieces, the reading (30_encoding.md R55). -/
theorem assemble_crc16 (c : Config) (bytes : Bytes) (seed : Word) :
    (AsmLine.crc16 bytes seed).assemble c = .issue (encode c (.crcSeed (loByte seed) (hiByte seed))) ::
      (crcBufEvents c (pieces bytes) ++ [.issue (encode c .crcRd)]) := by
  simp only [AsmLine.assemble, AsmLine.instrs, crcBufEvents, List.map_cons, List.map_append, List.map_nil]

theorem length_le_of_mem_piecesFuel {fuel : Nat} {s p : Bytes} (hs : s.length ≤ fuel)
    (hp : p ∈ piecesFuel fuel s) : p.length ≤ 255 := by
  induction fuel generalizing s with
  | zero =>
    obtain rfl := List.mem_singleton.1 hp
    omega
  | succ fuel ih =>
    unfold piecesFuel at hp
    split_ifs at hp with hle
    · obtain rfl := List.mem_singleton.1 hp
      exact hle
    · rcases List.mem_cons.1 hp with rfl | hrest
      · exact List.length_take_le 255 s
      · exact ih (by rw [List.length_drop]; omega) hrest

theorem pieces_of_length_le {s : Bytes} (h : s.length ≤ 255) : pieces s = [s] := by
  unfold pieces
  cases s.length with
  | zero => rfl
  | succ n => simp only [piecesFuel, if_pos h]

theorem exec_encCmd_of_accepts {s : State} {op : Byte} {d : Bytes} (h : s.cfg.accepts op d.length = true)
    (p1 q0 q1 : Byte) : exec (.encCmd op p1 q0 q1 d) s =
      .next { s with res := Result.okRes .ok (out := commandFrame s.cfg.crcStep op p1 q0 q1 d) } := by
  simp only [exec_eq, accAfter, resAfter, h, if_true]

theorem exec_encCmd_of_not_accepts {s : State} {op : Byte} {d : Bytes} (h : s.cfg.accepts op d.length = false)
    (p1 q0 q1 : Byte) : exec (.encCmd op p1 q0 q1 d) s =
      .next { s with res := Result.errRes .parameterError .none 0x99 } := by
  simp only [exec_eq, accAfter, resAfter, h, Bool.false_eq_true, if_false]

/-- What an instruction does is independent of the record before it: all of `RES` is written (10_state.md R17). -/
theorem exec_withRes (i : Instr) (s : State) (r : Result) : exec i { s with res := r } = exec i s := by
  rw [exec_eq, exec_eq]

section Execute
variable {s : State} {op : Byte} {d : ByteSeq} (tr : Bytes → Option ByteSeq) (p1 q0 q1 : Byte)

theorem execute_of_not_accepts (h : s.cfg.accepts op d.bytes.length = false) :
    execute tr op p1 q0 q1 d s = .next { s with res := Result.errRes .parameterError .none 0x99 } := by
  rw [execute, exec_encCmd_of_not_accepts h]
  rfl

/-- The bytes `DEC.RSP` is given are those received, or none. -/
theorem execute_of_accepts (h : s.cfg.accepts op d.bytes.length = true) :
    execute tr op p1 q0 q1 d s =
      exec (.decRsp (((tr (commandFrame s.cfg.crcStep op p1 q0 q1 d.bytes)).map ByteSeq.bytes).getD [])) s := by
  rw [execute, exec_encCmd_of_accepts h]
  simp only [okRes_kind, okRes_out, kindOf, ne_eq, not_true_eq_false, if_false]
  cases tr _ <;> exact exec_withRes _ s _

end Execute

end Machine

/-! ### The statements on the wire formats and the host procedures -/

/-- Settles O39: a command frame laid out from the fields is sound and gives them back to `DEC.CMD`. -/
theorem frameCmdDelivers : Obligations.FrameCmdDelivers := by
  intro s op p1 q0 q1 d hd
  refine ⟨exec_eq _ s, ?_⟩
  have hdec := decodeCommand_commandFrame s.cfg op p1 q0 q1 hd
  rw [exec_eq, exec_eq, ← decCmdRes_of_decodeCommand hdec s.acc]
  rfl

/-- Settles O40: by the two deliveries of a framed response, data or a status. -/
theorem frameRspDelivers : Obligations.FrameRspDelivers := by
  intro s d hd
  have hdec := decRspRes_of_decodeResponse (decodeResponse_responseFrame s.cfg hd) s.acc
  simp only [exec_eq, accAfter, resAfter, hdec, and_true]
  refine ⟨fun h => ?_, ?_⟩
  · rw [deliverResponse_data h]
    rfl
  · rintro b hf rfl
    rw [deliverResponse_status hf]
    refine ⟨fun code hcode => ?_, fun hnone => ?_⟩
    · rw [mapStatus_listed_record hcode]
      rfl
    · rw [mapStatus_unlisted_record hnone]

/-- Settles O41: all three map the byte. -/
theorem bareStatusIsMapped : Obligations.BareStatusIsMapped := by
  intro s b
  simp only [exec_eq, accAfter, resAfter, decRspRes_singleton, and_true]
  refine ⟨fun code hcode => ?_, fun hnone => ?_⟩
  · rw [mapStatus_listed_record hcode]
    rfl
  · rw [mapStatus_unlisted_record hnone]

/-- Settles O24: `CRC.SEED` puts the seed's two bytes together again, the pieces feed the buffer from there, and
`CRC.RD` reads the `ACC` that is left. -/
theorem crc16PseudoOperation : Obligations.Crc16PseudoOperation := by
  intro s bytes seed
  have hpieces : ∀ p ∈ pieces bytes, p.length ≤ 255 := fun p hp => length_le_of_mem_piecesFuel le_rfl hp
  refine ⟨?_, hpieces, pieces_of_length_le⟩
  have hseed := (perform_encode rfl).trans (exec_eq (.crcSeed (loByte seed) (hiByte seed)) s)
  simp only [accAfter, resAfter, joinBytes_split] at hseed
  obtain ⟨res, hbuf⟩ := performAll_crcBufEvents [.issue (encode s.cfg .crcRd)] hpieces
    { s with acc := seed, res := Result.okRes .ok (val := seed) }
  rw [pieces_flatten] at hbuf
  have hread := (perform_encode rfl).trans
    (exec_eq .crcRd { s with acc := crc16 s.cfg.crcStep bytes seed, res := res })
  rw [assemble_crc16]
  exact ⟨_, (performAll_cons hseed _).trans (hbuf.trans (performAll_cons hread [])), rfl, rfl⟩

/-- Settles O53: by whether the encoder accepts the payload, and then by what the transport answers. -/
theorem executeProcedure : Obligations.ExecuteProcedure := by
  intro s op p1 q0 q1 d tr
  refine ⟨fun h => execute_of_not_accepts tr p1 q0 q1 h, fun h => ?_⟩
  rw [execute_of_accepts tr p1 q0 q1 h]
  refine ⟨fun received htr => ?_, fun htr => ?_⟩
  · rw [htr]
    rfl
  · simp only [htr, Option.map_none, Option.getD_none, exec_eq, accAfter, resAfter, decRspRes_nil]
    rfl

end Sys2Proof

/-! PROOFS. The CRC unit (40_crc.md): the chaining law, the algebra of the default step, and the five operations.
The default step is taken apart bit by bit: one bit of a byte shifts the accumulator and adds the polynomial or
nothing, so it is linear over exclusive-or, and nothing but zero is sent to zero. -/

namespace Sys2Proof

/-! ### Chaining (R59) -/

/-- The chaining law for any number of pieces. -/
theorem crc16_flatten (f : Word → Byte → Word) (ps : List Bytes) (seed : Word) :
    ps.foldl (fun acc p => crc16 f p acc) seed = crc16 f ps.flatten seed := by
  induction ps generalizing seed with
  | nil => rfl
  | cons p ps ih => rw [List.foldl_cons, ih, List.flatten_cons, crc16_append]

set_option maxRecDepth 16384 in
/-- V-C22: the two pieces in order end at 0x3B67, in the other order at 0xD4C6. -/
theorem crc16_vC22 :
    crc16 crcStepR62 ([0x10, 0x11, 0x12, 0x13] ++ [0x14, 0x15, 0x16, 0x17]) 0 = 0x3B67 ∧
    crc16 crcStepR62 ([0x14, 0x15, 0x16, 0x17] ++ [0x10, 0x11, 0x12, 0x13]) 0 = 0xD4C6 := by
  decide

/-! ### One bit of the default step (R62) -/

/-- What a bit adds to the shifted accumulator: the polynomial, or nothing. -/
def crcTap (e : Bool) : Word := if e then 0x8005 else 0

theorem crcTap_xor (e e' : Bool) : crcTap (e ^^ e') = crcTap e ^^^ crcTap e' := by
  revert e e'
  decide

theorem crcBit_eq (a : Word) (d : Bool) : crcBit a d = a <<< 1 ^^^ crcTap (d ^^ a.getLsbD 15) := by
  unfold crcBit crcTap
  cases d <;> cases a.getLsbD 15 <;> simp

theorem crcBit_xor (a a' : Word) (d d' : Bool) :
    crcBit (a ^^^ a') (d ^^ d') = crcBit a d ^^^ crcBit a' d' := by
  have hin : ((d ^^ d') ^^ (a ^^^ a').getLsbD 15) = ((d ^^ a.getLsbD 15) ^^ (d' ^^ a'.getLsbD 15)) := by
    rw [BitVec.getLsbD_xor, Bool.xor_assoc, Bool.xor_left_comm d', ← Bool.xor_assoc]
  simp only [crcBit_eq, hin, crcTap_xor, BitVec.shiftLeft_xor_distrib]
  ac_rfl

/-- The low bit of the result is the bit shifted out, as the polynomial is odd; so a zero result has lost
nothing. -/
theorem eq_zero_of_crcBit_eq_zero {x : Word} (h : crcBit x false = 0) : x = 0 := by
  rw [crcBit_eq, Bool.false_xor] at h
  have htop : x.getLsbD 15 = false := by
    have hlow := congrArg (fun v => v.getLsbD 0) h
    cases hx : x.getLsbD 15 with
    | false => rfl
    | true => simp [hx, crcTap] at hlow
  have hshift : x <<< 1 = 0 := by
    rw [htop] at h
    exact (BitVec.xor_zero ..).symm.trans h
  apply BitVec.eq_of_getLsbD_eq
  intro i hi
  rcases Nat.lt_or_ge i 15 with hlt | hge
  · have hbit := congrArg (fun v => v.getLsbD (i + 1)) hshift
    simpa [-BitVec.getLsbD_eq_getElem, show i + 1 < 16 by omega] using hbit
  · obtain rfl : i = 15 := by omega
    exact htop

theorem crcBit_injective (d : Bool) : Function.Injective (fun a => crcBit a d) := by
  intro a a' h
  have hsum : crcBit (a ^^^ a') (d ^^ d) = 0 := (crcBit_xor a a' d d).trans (BitVec.xor_eq_zero_iff.2 h)
  rw [Bool.xor_self] at hsum
  exact BitVec.xor_eq_zero_iff.1 (eq_zero_of_crcBit_eq_zero hsum)

/-! ### The default step (R62, R68) -/

/-- The bits of a byte at the positions `ks`, entered one after the other. -/
def crcBits (ks : List Nat) (a : Word) (b : Byte) : Word :=
  ks.foldl (fun acc k => crcBit acc (b.getLsbD k)) a

theorem crcStepR62_eq : crcStepR62 = crcBits (List.range 8) := rfl

theorem crcBits_xor (ks : List Nat) (a a' : Word) (b b' : Byte) :
    crcBits ks (a ^^^ a') (b ^^^ b') = crcBits ks a b ^^^ crcBits ks a' b' := by
  induction ks generalizing a a' with
  | nil => rfl
  | cons k ks ih =>
    have hbit := crcBit_xor a a' (b.getLsbD k) (b'.getLsbD k)
    rw [← BitVec.getLsbD_xor] at hbit
    exact (congrArg (fun v => crcBits ks v (b ^^^ b')) hbit).trans (ih _ _)

theorem crcBits_injective (ks : List Nat) (b : Byte) : Function.Injective (fun a => crcBits ks a b) := by
  induction ks with
  | nil => exact Function.injective_id
  | cons k ks ih => exact ih.comp (crcBit_injective (b.getLsbD k))

theorem crcStepR62_xor (a a' : Word) (b b' : Byte) :
    crcStepR62 (a ^^^ a') (b ^^^ b') = crcStepR62 a b ^^^ crcStepR62 a' b' := by
  rw [crcStepR62_eq, crcBits_xor]

/-- R68 (c): an injection of the finite set of words into itself is a bijection. -/
theorem crcStepR62_bijective (b : Byte) : Function.Bijective (fun a => crcStepR62 a b) := by
  rw [crcStepR62_eq]
  exact (crcBits_injective (List.range 8) b).bijective_of_finite

theorem crcStepR62_zero_zero : crcStepR62 0 0x00 = 0 := by decide

/-- From `ACC = 0` only the zero byte leaves 0. -/
theorem eq_zero_of_crcStepR62_zero : ∀ b : Byte, crcStepR62 0 b = 0 → b = 0 := by decide

theorem crcStepR62_pAccInj : PAccInj crcStepR62 := fun b _ _ h => (crcStepR62_bijective b).injective.ne h

/-- By linearity the difference of two bytes enters a fresh accumulator, where only zero goes unseen. -/
theorem crcStepR62_pByteInj : PByteInj crcStepR62 := by
  intro a b b' hne heq
  have hdiff : crcStepR62 0 (b ^^^ b') = 0 := by
    have hlin := crcStepR62_xor a a b b'
    rwa [heq, BitVec.xor_self, BitVec.xor_self] at hlin
  exact hne (BitVec.xor_eq_zero_iff.1 (eq_zero_of_crcStepR62_zero _ hdiff))

theorem PByteInj.pBitInj {f : Word → Byte → Word} (h : PByteInj f) : PBitInj f :=
  fun a b k => h a b (flipBit b k) (flipBit_ne b k).symm

/-- R68 (b): zero bytes leave a fresh accumulator at 0. -/
theorem crc16_crcStepR62_replicate_zero (n : Nat) : crc16 crcStepR62 (List.replicate n 0x00) 0 = 0 := by
  induction n with
  | zero => rfl
  | succ n ih => rw [List.replicate_succ, crc16_cons, crcStepR62_zero_zero, ih]

/-! ### A chain with other things in between (R73, R87, R113, R117) -/

/-- The bytes that something issued adds to a chain: those of a `CRC.BUF` request. -/
def Encoded.crcBufBytes : Encoded → Bytes
  | .request r => if r.opsel = 0x03 then r.data.bytes else []
  | _ => []

namespace Machine

/-- Something issued that is no `CRC.CLR`, `CRC.SEED` or `CRC.BYTE` continues the CRC in `ACC` by its bytes. -/
theorem issueAcc_eq_crc16 (c : Config) (acc : Word) {w : Encoded}
    (h : ∀ r : Request, w = .request r → r.opsel ∉ [0x00, 0x01, 0x02]) :
    issueAcc c acc w = crc16 c.crcStep w.crcBufBytes acc := by
  cases w with
  | status b => exact issueAcc_status c acc b
  | command f => exact issueAcc_command c acc f
  | response f => exact issueAcc_response c acc f
  | request r =>
    by_cases hbuf : r.opsel = 0x03
    · rw [issueAcc_crcBuf c acc hbuf, Encoded.crcBufBytes, if_pos hbuf]
    · rw [Encoded.crcBufBytes, if_neg hbuf, crc16_nil]
      refine (issueAcc_eq_or_opsel c acc (.request r)).resolve_right ?_
      rintro ⟨r', hr, hmem⟩
      cases hr
      have hother := h r rfl
      simp only [List.mem_cons, List.not_mem_nil, or_false, not_or] at hmem hother
      tauto

theorem foldl_issueAcc_eq_crc16 (c : Config) (acc : Word) {ws : List Encoded}
    (h : ∀ r : Request, .request r ∈ ws → r.opsel ∉ [0x00, 0x01, 0x02]) :
    ws.foldl (issueAcc c) acc = crc16 c.crcStep (ws.flatMap Encoded.crcBufBytes) acc := by
  calc ws.foldl (issueAcc c) acc
      = ws.foldl (fun a w => crc16 c.crcStep w.crcBufBytes a) acc :=
        List.foldl_ext _ _ _ fun a w hw => issueAcc_eq_crc16 c a fun r hr => h r (hr ▸ hw)
    _ = (ws.map Encoded.crcBufBytes).foldl (fun a p => crc16 c.crcStep p a) acc := List.foldl_map.symm
    _ = crc16 c.crcStep (ws.flatMap Encoded.crcBufBytes) acc := crc16_flatten _ _ _

/-- Issuing any number of things answers a next state, in which `ACC` has been passed from each to the next. -/
theorem performAll_issue_eq (ws : List Encoded) (s : State) :
    ∃ res, performAll (ws.map .issue) s = .next { s with acc := ws.foldl (issueAcc s.cfg) s.acc, res := res } := by
  induction ws generalizing s with
  | nil => exact ⟨s.res, rfl⟩
  | cons w ws ih =>
    obtain ⟨res, hres⟩ := ih { s with acc := issueAcc s.cfg s.acc w, res := issueRes s.cfg s.acc w }
    exact ⟨res, (performAll_cons (perform_issue_eq w s) _).trans hres⟩

end Machine

/-! ### The statements on the CRC unit -/

open Machine

/-- Settles O21: the fold over joined sequences, for two pieces and for any number; V-C22's pieces in the other
order have another CRC. -/
theorem chainingLaw : Obligations.ChainingLaw := by
  refine ⟨crc16_append, crc16_flatten, [0x10, 0x11, 0x12, 0x13], [0x14, 0x15, 0x16, 0x17], ?_⟩
  obtain ⟨hin, hout⟩ := crc16_vC22
  rw [hin, hout]
  decide

/-- Settles O22: linearity, injectivity and their consequences, each carried from one bit to the eight of a byte. -/
theorem defaultStepLaws : Obligations.DefaultStepLaws := by
  refine ⟨crcStepR62_xor, fun n s => ?_, crcStepR62_bijective, crcStepR62_pAccInj, crcStepR62_pByteInj,
    crcStepR62_pByteInj.pBitInj⟩
  rw [crc16_append, crc16_crcStepR62_replicate_zero]

/-- Settles O23: each thing issued continues the CRC by its own bytes, and the pieces chain. -/
theorem chainSurvivesFraming : Obligations.ChainSurvivesFraming := by
  intro ws s h
  obtain ⟨res, hrun⟩ := performAll_issue_eq ws s
  exact ⟨_, hrun, foldl_issueAcc_eq_crc16 s.cfg s.acc h⟩

/-- Settles O16. -/
theorem crcClrResult : Obligations.CrcClrResult :=
  fun s => ⟨exec_eq .crcClr s, (exec_eq .crcClr s).trans (exec_eq (.crcSeed 0x00 0x00) s).symm⟩

/-- Settles O17. -/
theorem crcSeedResult : Obligations.CrcSeedResult :=
  fun s c0 c1 => exec_eq (.crcSeed c0 c1) s

/-- Settles O18: the fold over one byte is one step. -/
theorem crcByteResult : Obligations.CrcByteResult :=
  fun s b => ⟨exec_eq (.crcByte b) s, (exec_eq (.crcByte b) s).trans (exec_eq (.crcBuf [b]) s).symm⟩

/-- Settles O19: two buffers in a row by the chaining law. -/
theorem crcBufResult : Obligations.CrcBufResult := by
  refine fun s d => ⟨exec_eq (.crcBuf d) s, ?_, fun d' => ⟨_, exec_eq (.crcBuf d) s, ?_⟩⟩
  · rintro rfl
    exact ⟨_, exec_eq (.crcBuf []) s, rfl⟩
  · simp only [exec_eq, accAfter, resAfter, crc16_append]

/-- Settles O20: `ACC` is written back as it was. -/
theorem crcRdResult : Obligations.CrcRdResult :=
  fun s => exec_eq .crcRd s

end Sys2Proof

/-! PROOFS. The frame encoder (41_frame_encode.md): which payload lengths `ENC.CMD` accepts, and the frame it builds
byte by byte. The layers are, in order: the length check, the bytes of the layout and its CRC, the instruction. -/

namespace Sys2Proof

/-! ### The length check (R70) -/

theorem Config.accepts_iff {c : Config} {op : Byte} {n : Nat} :
    c.accepts op n = true ↔ n ≤ c.maxPayload.val ∧ (c.opsize op).1 ≤ n ∧ n ≤ (c.opsize op).2 := by
  simp [Config.accepts, and_assoc]

theorem Config.accepts_eq_false_iff {c : Config} {op : Byte} {n : Nat} :
    c.accepts op n = false ↔ c.maxPayload.val < n ∨ n < (c.opsize op).1 ∨ (c.opsize op).2 < n := by
  rw [← Bool.not_eq_true, Config.accepts_iff]
  omega

/-! ### The bytes of a command frame (R72) -/

/-- A payload byte stands five places further in the frame, after `count`, opcode, param1 and param2. -/
theorem byteAt_commandFrame_payload (f : Word → Byte → Word) (op p1 q0 q1 : Byte) {d : Bytes} {i : Nat}
    (hi : i < d.length) : byteAt (commandFrame f op p1 q0 q1 d) (5 + i) = byteAt d i := by
  rw [Nat.add_comm]
  exact List.getD_append d _ 0 i hi

/-- The two bytes after a body, as a little-endian word, are the CRC of the body (20_memory.md R29). -/
theorem joinBytes_crcField (f : Word → Byte → Word) (body : Bytes) :
    joinBytes (byteAt (body ++ crcField f body) body.length) (byteAt (body ++ crcField f body) (body.length + 1)) =
      crc16 f body 0 := by
  have hlo : byteAt (body ++ crcField f body) body.length = loByte (crc16 f body 0) := by
    simp [byteAt, crcField]
  have hhi : byteAt (body ++ crcField f body) (body.length + 1) = hiByte (crc16 f body 0) := by
    simp [byteAt, crcField]
  rw [hlo, hhi, joinBytes_split]

/-- The last two bytes of a command frame are the CRC of all the bytes before them (R71). -/
theorem joinBytes_commandFrame (f : Word → Byte → Word) (op p1 q0 q1 : Byte) (d : Bytes) :
    joinBytes (byteAt (commandFrame f op p1 q0 q1 d) (5 + d.length))
        (byteAt (commandFrame f op p1 q0 q1 d) (6 + d.length)) =
      crc16 f ((commandFrame f op p1 q0 q1 d).take (5 + d.length)) 0 := by
  rw [commandFrame]
  generalize hbody : [BitVec.ofNat 8 (7 + d.length), op, p1, q0, q1] ++ d = body
  have hlen : body.length = 5 + d.length := by
    rw [← hbody, List.length_append]
    rfl
  rw [show 6 + d.length = body.length + 1 by omega, ← hlen, List.take_left, joinBytes_crcField]

namespace Machine

/-! ### The instruction (R70, R71) -/

/-- A frame is reported only for an accepted payload. -/
theorem accepts_of_exec_encCmd {s t : State} {op p1 q0 q1 : Byte} {d : Bytes}
    (h : exec (.encCmd op p1 q0 q1 d) s = .next t) (hk : t.res.kind = .success) :
    s.cfg.accepts op d.length = true := by
  by_contra hacc
  rw [exec_encCmd_of_not_accepts (Bool.eq_false_iff.2 hacc)] at h
  cases h
  cases hk

/-- `DEC.CMD` of a laid out command frame delivers the fields it was laid out from (42_frame_decode.md R81). -/
theorem exec_decCmd_commandFrame (s : State) (op p1 q0 q1 : Byte) {d : Bytes} (hd : d.length ≤ 248) :
    exec (.decCmd (commandFrame s.cfg.crcStep op p1 q0 q1 d)) s =
      .next { s with res := deliverCommand op p1 q0 q1 d } := by
  obtain ⟨hdeliver, hsame⟩ := frameCmdDelivers s op p1 q0 q1 d hd
  exact hsame.symm.trans hdeliver

end Machine

/-! ### The statements on the frame encoder -/

open Machine

/-- Settles O27: a success is a frame of an accepted payload, whose bytes stand where the layout puts them and
from which `DEC.CMD` takes the operands back. -/
theorem encCmdFrameFields : Obligations.EncCmdFrameFields := by
  intro s t op p1 q0 q1 d h hk
  have hacc := accepts_of_exec_encCmd h hk
  have hd : d.length ≤ 248 :=
    (Config.length_le_maxPayload_of_accepts hacc).trans (Nat.le_of_lt_succ s.cfg.maxPayload.isLt)
  rw [exec_encCmd_of_accepts hacc] at h
  cases h
  simp only [okRes_out]
  obtain ⟨hcount, hop, hp1, hq0, hq1⟩ := commandFrame_fields s.cfg.crcStep op p1 q0 q1 d
  refine ⟨commandFrame_length .., ?_, hop, hp1, hq0, hq1, fun i hi => byteAt_commandFrame_payload _ _ _ _ _ hi,
    joinBytes_commandFrame .., exec_decCmd_commandFrame s op p1 q0 q1 hd⟩
  rw [hcount, BitVec.toNat_ofNat]
  omega

/-- Settles O25: the frame's length is `7 + n`, and the CRC field is the two bytes of the CRC from seed 0. -/
theorem encCmdBuildsFrame : Obligations.EncCmdBuildsFrame := by
  intro s op p1 q0 q1 d hmax hlo hhi
  have hexec := exec_encCmd_of_accepts (Config.accepts_iff.2 ⟨hmax, hlo, hhi⟩) p1 q0 q1
  rw [Result.okRes, commandFrame_length] at hexec
  exact hexec

/-- Settles O26: by the length check; no instance accepts 249 bytes, as `MAX_PAYLOAD` is at most 248 (R8). -/
theorem encCmdRefusesLength : Obligations.EncCmdRefusesLength := by
  refine ⟨fun s op p1 q0 q1 d h => exec_encCmd_of_not_accepts (Config.accepts_eq_false_iff.2 h) p1 q0 q1,
    fun s op p1 q0 q1 d h => ?_, fun s op p1 q0 q1 d h => ?_⟩
  · have hacc : s.cfg.accepts op d.length = true := by
      rwa [← Config.accepts_eq_false_iff, Bool.not_eq_false] at h
    exact ⟨_, exec_encCmd_of_accepts hacc p1 q0 q1, rfl, commandFrame_length ..⟩
  · have hmax : s.cfg.maxPayload.val < d.length := s.cfg.maxPayload.isLt.trans_le h
    exact exec_encCmd_of_not_accepts (Config.accepts_eq_false_iff.2 (.inl hmax)) p1 q0 q1

end Sys2Proof

/-! PROOFS. The frame decoder (42_frame_decode.md): the first fault of a sequence, what a changed byte does to a
sound one, and the results of `DEC.CMD` and `DEC.RSP`. The layers are, in order: the structural check, a changed
byte, the data of a sound sequence, the two instructions. -/

namespace Sys2Proof

/-! ### The structural check (R76, R77) -/

section Check
variable {f : Word → Byte → Word} {s : Bytes} {min : Nat}

/-- The last two bytes are the CRC of the bytes before them, low byte first. -/
def EndsInCrc (f : Word → Byte → Word) (s : Bytes) : Prop :=
  byteAt s (s.length - 2) = loByte (crc16 f (s.take (s.length - 2)) 0) ∧
    byteAt s (s.length - 1) = hiByte (crc16 f (s.take (s.length - 2)) 0)

/-- The last check: a sequence of its `count` in length, not too short to hold a CRC. -/
theorem frameCheck_of_length_eq_count (hm : 3 ≤ min) (hmin : min ≤ (byteAt s 0).toNat)
    (hn : s.length = (byteAt s 0).toNat) :
    (EndsInCrc f s ∧ frameCheck f s min = .none) ∨ (¬ EndsInCrc f s ∧ frameCheck f s min = .crcMismatch) := by
  have hbody : slice s 0 (s.length - 3) = s.take (s.length - 2) := by
    rw [slice, List.drop_zero, show s.length - 3 + 1 - 0 = s.length - 2 by omega]
  unfold frameCheck
  rw [if_neg (by omega)]
  dsimp only
  rw [if_neg (by omega), if_neg (by omega), if_neg (by omega), ← hn, hbody]
  by_cases hcrc : EndsInCrc f s
  · exact .inl ⟨hcrc, if_neg fun h => h.elim (absurd hcrc.1) (absurd hcrc.2)⟩
  · exact .inr ⟨hcrc, if_pos (not_and_or.1 hcrc)⟩

/-- The six results of the check, each under its condition; the conditions exclude each other. -/
theorem frameCheck_cases (f : Word → Byte → Word) (s : Bytes) (hm : 3 ≤ min) :
    (s.length = 0 ∧ frameCheck f s min = .empty) ∨
    (s.length ≠ 0 ∧ (byteAt s 0).toNat < min ∧ frameCheck f s min = .badCount) ∨
    (s.length ≠ 0 ∧ min ≤ (byteAt s 0).toNat ∧ s.length < (byteAt s 0).toNat ∧ frameCheck f s min = .short) ∨
    (min ≤ (byteAt s 0).toNat ∧ (byteAt s 0).toNat < s.length ∧ frameCheck f s min = .long) ∨
    (min ≤ (byteAt s 0).toNat ∧ s.length = (byteAt s 0).toNat ∧ ¬ EndsInCrc f s ∧
      frameCheck f s min = .crcMismatch) ∨
    (min ≤ (byteAt s 0).toNat ∧ s.length = (byteAt s 0).toNat ∧ EndsInCrc f s ∧ frameCheck f s min = .none) := by
  by_cases h0 : s.length = 0
  · exact .inl ⟨h0, if_pos h0⟩
  by_cases hbad : (byteAt s 0).toNat < min
  · exact .inr (.inl ⟨h0, hbad, by simp [frameCheck, h0, hbad]⟩)
  have hmin := Nat.le_of_not_lt hbad
  rcases Nat.lt_trichotomy s.length (byteAt s 0).toNat with hlt | heq | hgt
  · exact .inr (.inr (.inl ⟨h0, hmin, hlt, by simp [frameCheck, h0, hbad, hlt]⟩))
  · rcases frameCheck_of_length_eq_count (f := f) hm hmin heq with ⟨hcrc, h⟩ | ⟨hcrc, h⟩
    · exact .inr (.inr (.inr (.inr (.inr ⟨hmin, heq, hcrc, h⟩))))
    · exact .inr (.inr (.inr (.inr (.inl ⟨hmin, heq, hcrc, h⟩))))
  · exact .inr (.inr (.inr (.inl ⟨hmin, hgt, by simp [frameCheck, h0, hbad, hgt, Nat.lt_asymm hgt]⟩)))

/-- The conditions being exclusive, each result is reported under its own and under no other. -/
theorem frameCheck_first_fault (f : Word → Byte → Word) (s : Bytes) (hm : 3 ≤ min) :
    (frameCheck f s min = .empty ↔ s.length = 0) ∧
    (frameCheck f s min = .badCount ↔ s.length ≠ 0 ∧ (byteAt s 0).toNat < min) ∧
    (frameCheck f s min = .short ↔
      s.length ≠ 0 ∧ min ≤ (byteAt s 0).toNat ∧ s.length < (byteAt s 0).toNat) ∧
    (frameCheck f s min = .long ↔ min ≤ (byteAt s 0).toNat ∧ (byteAt s 0).toNat < s.length) ∧
    (frameCheck f s min = .crcMismatch ↔
      min ≤ (byteAt s 0).toNat ∧ s.length = (byteAt s 0).toNat ∧ ¬ EndsInCrc f s) ∧
    (frameCheck f s min = .none ↔
      min ≤ (byteAt s 0).toNat ∧ s.length = (byteAt s 0).toNat ∧ EndsInCrc f s) := by
  rcases frameCheck_cases f s hm with ⟨h0, h⟩ | ⟨h0, hbad, h⟩ | ⟨h0, hmin, hlt, h⟩ | ⟨hmin, hgt, h⟩ |
    ⟨hmin, hn, hcrc, h⟩ | ⟨hmin, hn, hcrc, h⟩ <;> simp only [h, reduceCtorEq, false_iff, true_iff]
  case inr.inr.inr.inr.inl | inr.inr.inr.inr.inr =>
    simp only [hcrc, not_true_eq_false, not_false_eq_true, and_true, true_and, and_false]
    omega
  all_goals omega

theorem frameCheck_eq_none_iff (hm : 3 ≤ min) :
    frameCheck f s min = .none ↔ min ≤ (byteAt s 0).toNat ∧ s.length = (byteAt s 0).toNat ∧ EndsInCrc f s := by
  obtain ⟨-, -, -, -, -, hnone⟩ := frameCheck_first_fault f s hm
  exact hnone

theorem frameCheck_eq_crcMismatch_iff (hm : 3 ≤ min) :
    frameCheck f s min = .crcMismatch ↔
      min ≤ (byteAt s 0).toNat ∧ s.length = (byteAt s 0).toNat ∧ ¬ EndsInCrc f s := by
  obtain ⟨-, -, -, -, hcrc, -⟩ := frameCheck_first_fault f s hm
  exact hcrc

/-- The minimum of a command frame or of a framed response leaves room for `count` and CRC (R44, R47). -/
theorem three_le_of_minCount (h : min = 7 ∨ min = 3) : 3 ≤ min := by
  omega

/-- The `count` of a sound sequence is its length. -/
theorem count_of_frameCheck (hm : 3 ≤ min) (h : frameCheck f s min = .none) :
    (byteAt s 0).toNat = s.length ∧ min ≤ s.length := by
  obtain ⟨hmin, hn, -⟩ := (frameCheck_eq_none_iff hm).1 h
  exact ⟨hn.symm, hn ▸ hmin⟩

/-- A `count` that is not the length is found before the CRC is looked at. -/
theorem frameCheck_of_count_ne (hm : 3 ≤ min) (h0 : s.length ≠ 0) (hn : (byteAt s 0).toNat ≠ s.length) :
    frameCheck f s min ∈ [.badCount, .short, .long] := by
  rcases frameCheck_cases f s hm with ⟨hz, -⟩ | ⟨-, -, h⟩ | ⟨-, -, -, h⟩ | ⟨-, -, h⟩ | ⟨-, he, -⟩ | ⟨-, he, -⟩
  · exact absurd hz h0
  · simp [h]
  · simp [h]
  · simp [h]
  · exact absurd he.symm hn
  · exact absurd he.symm hn

/-! ### A changed byte (R82) -/

theorem byteAt_set_self {i : Nat} (hi : i < s.length) (b : Byte) : byteAt (s.set i b) i = b := by
  simp [byteAt, hi]

theorem byteAt_set_ne {i j : Nat} (h : i ≠ j) (b : Byte) : byteAt (s.set i b) j = byteAt s j := by
  simp [byteAt, h]

theorem byteAt_take {i n : Nat} (h : i < n) : byteAt (s.take n) i = byteAt s i := by
  simp [byteAt, h]

/-- Of two sequences that differ in one byte, at which the step tells the bytes apart, at most one ends in its CRC:
either the CRCs differ and the last two bytes do not, or the other way round. -/
theorem not_endsInCrc_set (hf : PAccInj f) {i : Nat} {b : Byte} (hi : i < s.length)
    (hb : ∀ a, f a (byteAt s i) ≠ f a b) (h : EndsInCrc f s) : ¬ EndsInCrc f (s.set i b) := by
  have hne : b ≠ byteAt s i := fun he => hb 0 (by rw [he])
  obtain ⟨hlo, hhi⟩ := h
  rintro ⟨hlo', hhi'⟩
  rw [List.length_set] at hlo' hhi'
  by_cases hbody : i < s.length - 2
  · rw [byteAt_set_ne (by omega), hlo] at hlo'
    rw [byteAt_set_ne (by omega), hhi] at hhi'
    rw [List.take_set] at hlo' hhi'
    refine crc16_set_ne hf (s := s.take (s.length - 2)) (i := i) (b := b) ?_ ?_ 0
      (word_eq_of_bytes hlo' hhi').symm
    · rw [List.length_take]
      omega
    · rwa [byteAt_take hbody]
  · rw [List.take_set_of_le (by omega)] at hlo' hhi'
    obtain rfl | rfl : i = s.length - 2 ∨ i = s.length - 1 := by omega
    · rw [byteAt_set_self hi, ← hlo] at hlo'
      exact hne hlo'
    · rw [byteAt_set_self hi, ← hhi] at hhi'
      exact hne hhi'

/-- A changed `count` of a sound sequence. -/
theorem frameCheck_set_count (hm : 3 ≤ min) (h : frameCheck f s min = .none) {b : Byte} (hb : b ≠ byteAt s 0) :
    frameCheck f (s.set 0 b) min ∈ [.badCount, .short, .long] := by
  obtain ⟨hn, hmin⟩ := count_of_frameCheck hm h
  refine frameCheck_of_count_ne hm (by rw [List.length_set]; omega) ?_
  rw [byteAt_set_self (by omega), List.length_set, ← hn]
  exact fun he => hb (BitVec.eq_of_toNat_eq he)

/-- A changed byte of a sound sequence behind `count`. -/
theorem frameCheck_set_of_ne_zero (hm : 3 ≤ min) (h : frameCheck f s min = .none) (hf : PAccInj f) {i : Nat} {b : Byte}
    (h0 : i ≠ 0) (hi : i < s.length) (hb : ∀ a, f a (byteAt s i) ≠ f a b) :
    frameCheck f (s.set i b) min = .crcMismatch := by
  obtain ⟨hmin, hn, hcrc⟩ := (frameCheck_eq_none_iff hm).1 h
  rw [frameCheck_eq_crcMismatch_iff hm, byteAt_set_ne h0, List.length_set]
  exact ⟨hmin, hn, not_endsInCrc_set hf hi hb hcrc⟩

/-- A changed byte of a sound sequence is found. -/
theorem frameCheck_set_ne_none (hm : 3 ≤ min) (h : frameCheck f s min = .none) (hf : PAccInj f) {i : Nat} {b : Byte}
    (hi : i < s.length) (hb : ∀ a, f a (byteAt s i) ≠ f a b) : frameCheck f (s.set i b) min ≠ .none := by
  by_cases h0 : i = 0
  · subst h0
    have hne : b ≠ byteAt s 0 := fun he => hb 0 (by rw [he])
    intro hnone
    simpa [hnone] using frameCheck_set_count hm h hne
  · simp [frameCheck_set_of_ne_zero hm h hf h0 hi hb]

theorem flipBitAt_length (s : Bytes) (i : Nat) (k : Fin 8) : (flipBitAt s i k).length = s.length :=
  List.length_set

/-- An inverted bit of a sound sequence is found. -/
theorem frameCheck_flipBitAt_ne_none (hm : 3 ≤ min) (h : frameCheck f s min = .none)
    (hf : PAccInj f ∧ PBitInj f) {i : Nat} (hi : i < s.length) (k : Fin 8) :
    frameCheck f (flipBitAt s i k) min ≠ .none :=
  frameCheck_set_ne_none hm h hf.1 hi fun a => hf.2 a _ k

end Check

/-- Two framed responses whose CRCs differ in the low byte alone: changing the data byte and that CRC byte turns the
one into the other. -/
theorem responseFrame_two_bytes_apart :
    responseFrame crcStepR62 [0x00] = [0x04, 0x00, 0x03, 0x40] ∧
    responseFrame crcStepR62 [0xC0] = [0x04, 0xC0, 0x09, 0x40] := by
  simp [responseFrame, crcField, crcStepR62, crcBit, List.range_succ, loByte, hiByte]

/-! ### The data of a sound sequence (R79, R83) -/

section Data
variable {f : Word → Byte → Word} {s : Bytes}

/-- The payload of a command frame stands between its five header bytes and its CRC. -/
theorem commandPayload_eq (h : frameCheck f s minCommandCount = .none) :
    commandPayload s = (s.drop 5).take (s.length - 7) := by
  obtain ⟨hn, -⟩ := count_of_frameCheck (by decide) h
  rw [commandPayload, slice, hn, show s.length - 3 + 1 - 5 = s.length - 7 by omega]

/-- The data of a framed response stand between `count` and CRC. -/
theorem responseData_eq (h : frameCheck f s minResponseCount = .none) :
    responseData s = (s.drop 1).take (s.length - 3) := by
  obtain ⟨hn, -⟩ := count_of_frameCheck (by decide) h
  rw [responseData, slice, hn, show s.length - 3 + 1 - 1 = s.length - 3 by omega]

/-- A framed response of four bytes has one byte of data. -/
theorem responseData_of_count_eq_four (h : frameCheck f s minResponseCount = .none)
    (hcount : (byteAt s 0).toNat = 4) : responseData s = [byteAt s 1] := by
  obtain ⟨hn, -⟩ := count_of_frameCheck (by decide) h
  have hlen : 1 < s.length := by omega
  rw [responseData_eq h, ← hn, hcount, List.drop_eq_getElem_cons hlen, byteAt, List.getD_eq_getElem _ _ hlen]
  rfl

end Data

/-- An accepted payload fits a command frame (R8, R44). -/
theorem Config.length_le_of_accepts {c : Config} {op : Byte} {n : Nat} (h : c.accepts op n = true) : n ≤ 248 :=
  (Config.length_le_maxPayload_of_accepts h).trans (Nat.le_of_lt_succ c.maxPayload.isLt)

/-- The default step has the two properties of R60 and R61, and another one has them by assumption. -/
theorem Config.crcStep_pAccInj_and_pBitInj {c : Config} (h : c.crc = .r62 ∨ (PAccInj c.crcStep ∧ PBitInj c.crcStep)) :
    PAccInj c.crcStep ∧ PBitInj c.crcStep := by
  refine h.elim (fun hr62 => ?_) id
  rw [Config.crcStep, hr62]
  exact ⟨crcStepR62_pAccInj, crcStepR62_pByteInj.pBitInj⟩

namespace Machine

/-! ### The two instructions -/

section Decoders
variable {s : State} {d : Bytes}

theorem exec_decCmd_of_sound (h : frameCheck s.cfg.crcStep d minCommandCount = .none) :
    exec (.decCmd d) s = .next { s with
      res := deliverCommand (byteAt d 1) (byteAt d 2) (byteAt d 3) (byteAt d 4) (commandPayload d) } := by
  simp only [exec_eq, accAfter, resAfter, decCmdRes, h, if_true]

theorem exec_decCmd_of_unsound (h : frameCheck s.cfg.crcStep d minCommandCount ≠ .none) :
    exec (.decCmd d) s = .next { s with
      res := Result.errRes .communicationError (frameCheck s.cfg.crcStep d minCommandCount) 0x00 } := by
  simp only [exec_eq, accAfter, resAfter, decCmdRes, h, if_false]

theorem exec_decRsp_singleton (s : State) (b : Byte) :
    exec (.decRsp [b]) s = .next { s with res := mapStatus b [] } :=
  exec_eq (.decRsp [b]) s

/-- A sound framed response is not one byte, as it has at least three. -/
theorem exec_decRsp_of_sound (h : frameCheck s.cfg.crcStep d minResponseCount = .none) :
    exec (.decRsp d) s = .next { s with res := deliverResponse s.cfg (responseData d) } := by
  obtain ⟨-, hmin, -⟩ := responseData_length h
  have hone : d.length ≠ 1 := by omega
  simp only [exec_eq, accAfter, resAfter, decRspRes, hone, h, if_false, if_true]

theorem exec_decRsp_of_unsound (hone : d.length ≠ 1) (h : frameCheck s.cfg.crcStep d minResponseCount ≠ .none) :
    exec (.decRsp d) s = .next { s with
      res := Result.errRes .communicationError (frameCheck s.cfg.crcStep d minResponseCount) 0x00 } := by
  simp only [exec_eq, accAfter, resAfter, decRspRes, hone, h, if_false]

/-- `DEC.CMD` that leaves a Success, or bytes, was given a sound frame. -/
theorem frameCheck_of_exec_decCmd {t : State} (h : exec (.decCmd d) s = .next t)
    (ht : t.res.kind = .success ∨ t.res.out ≠ []) : frameCheck s.cfg.crcStep d minCommandCount = .none := by
  by_contra hsound
  rw [exec_decCmd_of_unsound hsound] at h
  cases h
  simp at ht

/-- `DEC.RSP` that leaves bytes was given a sound frame: of a bare status none are left. -/
theorem frameCheck_of_exec_decRsp {t : State} (h : exec (.decRsp d) s = .next t) (ht : t.res.out ≠ []) :
    frameCheck s.cfg.crcStep d minResponseCount = .none := by
  by_contra hsound
  by_cases hone : d.length = 1
  · obtain ⟨b, rfl⟩ := List.length_eq_one_iff.1 hone
    rw [exec_decRsp_singleton] at h
    cases h
    obtain ⟨code, -, hmap⟩ | ⟨-, hmap⟩ := mapStatus_cases b [] <;> simp [hmap] at ht
  · rw [exec_decRsp_of_unsound hone hsound] at h
    cases h
    simp at ht

/-- The bytes a framed response delivers are all of its data, or none (an unlisted status). -/
theorem deliverResponse_out {c : Config} {data : Bytes} (h : (deliverResponse c data).out ≠ []) :
    (deliverResponse c data).out = data := by
  obtain ⟨-, -, hd⟩ | ⟨-, hd⟩ := deliverResponse_cases c data <;> rw [hd] at h ⊢
  · obtain ⟨code, -, hmap⟩ | ⟨-, hmap⟩ := mapStatus_cases (byteAt data 0) data <;> rw [hmap] at h ⊢
    · rfl
    · exact absurd rfl h
  · rfl

end Decoders

end Machine

/-! ### The statements on the frame decoder -/

open Machine

/-- Settles O30: a frame built is a sound layout of the operands, and a sound frame is the layout of the fields taken
from it. -/
theorem encodeDecodeRoundTrip : Obligations.EncodeDecodeRoundTrip := by
  refine ⟨fun s t op p1 q0 q1 d h hk => ?_, fun s t d h hk hmax hlo hhi => ?_⟩
  · have hacc := accepts_of_exec_encCmd h hk
    rw [exec_encCmd_of_accepts hacc] at h
    cases h
    exact ⟨_, exec_decCmd_commandFrame _ op p1 q0 q1 (Config.length_le_of_accepts hacc), rfl, rfl, rfl, rfl, rfl, rfl⟩
  · have hsound := frameCheck_of_exec_decCmd h (.inl hk)
    rw [exec_decCmd_of_sound hsound] at h
    cases h
    exact ⟨_, exec_encCmd_of_accepts (Config.accepts_iff.2 ⟨hmax, hlo, hhi⟩) _ _ _, rfl,
      commandFrame_of_frameCheck hsound⟩

/-- Settles O28: the conditions of the six results exclude each other. -/
theorem frameCheckFirstFault : Obligations.FrameCheckFirstFault :=
  fun f s _ hm => frameCheck_first_fault f s (three_le_of_minCount hm)

/-- Settles O29: by whether the frame is sound. -/
theorem decCmdResult : Obligations.DecCmdResult := by
  refine fun s d => ⟨fun h => ?_, fun h => ⟨exec_decCmd_of_unsound h, frameCheck_ne_unmappedStatus _ _ _⟩⟩
  obtain ⟨hn, -⟩ := count_of_frameCheck (by decide) h
  obtain ⟨hpay, -⟩ := commandPayload_length h
  rw [exec_decCmd_of_sound h, deliverCommand, Result.okRes, hpay, commandPayload_eq h, hn]
  rfl

/-- Settles O31: an inverted bit of `count` makes it differ from the length, and one elsewhere makes the CRC differ
from the last two bytes; under the default step so does any other change of a byte. Changing a data byte and a byte
of the CRC can lead from one sound response to another (`responseFrame_two_bytes_apart`). -/
theorem singleBitFlipDetected : Obligations.SingleBitFlipDetected := by
  refine ⟨fun f hacc hbit s min i k hm h hi => ⟨?_, fun h0 => ?_⟩, fun s min i b hm h hi hb => ?_, ?_⟩
  · rintro rfl
    exact frameCheck_set_count (three_le_of_minCount hm) h (flipBit_ne _ k)
  · exact frameCheck_set_of_ne_zero (three_le_of_minCount hm) h hacc h0 hi fun a => hbit a _ k
  · exact frameCheck_set_ne_none (three_le_of_minCount hm) h crcStepR62_pAccInj hi
      fun a => crcStepR62_pByteInj a _ b hb.symm
  · have hfrom := frameCheck_responseFrame crcStepR62 (d := [0x00]) (by decide)
    have hto := frameCheck_responseFrame crcStepR62 (d := [0xC0]) (by decide)
    rw [responseFrame_two_bytes_apart.1] at hfrom
    rw [responseFrame_two_bytes_apart.2] at hto
    exact ⟨[0x04, 0x00, 0x03, 0x40], 1, 2, 0xC0, 0x09, by decide, by decide, by decide, by decide, by decide,
      hfrom, hto⟩

/-- Settles O32: the inverted bit leaves the length, so a framed response does not become a bare status, and the
frame unsound. -/
theorem corruptedFrameNotDelivered : Obligations.CorruptedFrameNotDelivered := by
  intro s d i k hcrc hi
  have hinj := Config.crcStep_pAccInj_and_pBitInj hcrc
  refine ⟨fun h => ?_, fun h => ?_⟩
  · have hflip := frameCheck_flipBitAt_ne_none (by decide) h hinj hi k
    exact ⟨_, hflip, exec_decCmd_of_unsound hflip⟩
  · have hflip := frameCheck_flipBitAt_ne_none (by decide) h hinj hi k
    obtain ⟨-, hmin, -⟩ := responseData_length h
    have hone : (flipBitAt d i k).length ≠ 1 := by
      rw [flipBitAt_length]
      omega
    exact ⟨_, hflip, exec_decRsp_of_unsound hone hflip⟩

/-- Settles O34: by the two deliveries of a framed response, and by whether its status byte is listed. -/
theorem decRspFramed : Obligations.DecRspFramed := by
  intro s d h
  obtain ⟨hn, -⟩ := count_of_frameCheck (by decide) h
  obtain ⟨hdata, hmin, -⟩ := responseData_length h
  rw [exec_decRsp_of_sound h]
  refine ⟨fun hkind => ?_, fun hf hcount => ?_⟩
  · have hone : s.cfg.framedStatus = false ∨ (responseData d).length ≠ 1 := hkind.imp_right fun h4 => by omega
    rw [deliverResponse_data hone, Result.okRes, hdata, responseData_eq h, hn]
    rfl
  · rw [responseData_of_count_eq_four h hcount, deliverResponse_status hf]
    refine ⟨fun code hcode => ?_, fun hunlisted => ?_⟩
    · rw [hcode, mapStatus_listed_record (outcomeOf_byte code)]
      rfl
    · rw [mapStatus_unlisted_record (outcomeOf_none_iff.2 hunlisted)]

/-- Settles O36: bytes are left only of a sound sequence, and are its data or payload; a `count` of 8 bits bounds
them. -/
theorem payloadOnlyAfterSoundCrc : Obligations.PayloadOnlyAfterSoundCrc := by
  refine ⟨fun s t d h hout => ?_, fun s t d h hout => ?_⟩
  · have hsound := frameCheck_of_exec_decRsp h hout
    obtain ⟨hdata, -, hmax⟩ := responseData_length hsound
    rw [exec_decRsp_of_sound hsound] at h
    cases h
    have hall := deliverResponse_out hout
    exact ⟨hsound, hall.trans (responseData_eq hsound), by rw [hall]; omega⟩
  · have hsound := frameCheck_of_exec_decCmd h (.inr hout)
    obtain ⟨hpay, -, hmax⟩ := commandPayload_length hsound
    rw [exec_decCmd_of_sound hsound] at h
    cases h
    exact ⟨hsound, commandPayload_eq hsound, hpay.trans_le (by omega)⟩

/-- Settles O33: one byte goes to the mapper, whatever CRC it would have. -/
theorem decRspBareStatus : Obligations.DecRspBareStatus := by
  intro s b
  rw [exec_decRsp_singleton]
  refine ⟨?_, fun hunlisted => ?_⟩
  · rintro code rfl
    rw [mapStatus_listed_record (outcomeOf_byte code)]
    rfl
  · rw [mapStatus_unlisted_record (outcomeOf_none_iff.2 hunlisted)]

/-- Settles O35. -/
theorem decRspReportsFault : Obligations.DecRspReportsFault :=
  fun _ _ hone h => exec_decRsp_of_unsound hone h

end Sys2Proof

/-! PROOFS. The status map (43_status_map.md): which kind goes with which status byte, in every record the block
writes and for each way a status byte is handed in. The layers are, in order: the kinds of the codes, the
selectors that take a status byte, what a written record says of a status, a status byte handed in. -/

namespace Sys2Proof

/-! ### The kinds of the codes (R91, R94) -/

/-- What the device reports is never taken for a communication error (R94). -/
theorem kindOf_ne_communicationError (code : StatusCode) : kindOf code ≠ .communicationError := by
  cases code <;> decide

/-- AuthenticationFailure is the kind of CheckMacFail alone. -/
theorem kindOf_eq_authenticationFailure_iff (code : StatusCode) :
    kindOf code = .authenticationFailure ↔ code.byte = 0x01 := by
  cases code <;> decide

/-! ### The two selectors that take a status byte (30_encoding.md R40) -/

theorem decodeRequest_decRsp {r : Request} (h : r.opsel = 0x0A) :
    decodeRequest r = .ok (.decRsp r.data.bytes) := by
  simp [decodeRequest, h]

theorem decodeRequest_stMap {r : Request} (h : r.opsel = 0x0B) : decodeRequest r = .ok (.stMap r.a) := by
  simp [decodeRequest, h]

namespace Machine

/-! ### What a written record says of a status (R88, R94) -/

/-- A record that is written holds a listed code with its kind and no reason, or a communication error with a reason,
whose `STATUS` is 0 or an unlisted byte and so never that of CheckMacFail. -/
theorem Result.Written.code_or_fault {r : Result} (h : r.Written) :
    (∃ code, r.status = code.byte ∧ r.kind = kindOf code ∧ r.reason = .none) ∨
    (r.kind = .communicationError ∧ r.reason ≠ .none ∧ r.status ≠ 0x01 ∧
      (r.reason = .unmappedStatus → outcomeOf r.status = none)) := by
  cases h with
  | success => exact .inl ⟨.ok, rfl, rfl, rfl⟩
  | status code => exact .inl ⟨code, rfl, rfl, rfl⟩
  | refused => exact .inl ⟨.badParameters, rfl, rfl, rfl⟩
  | unsound reason hnone hstatus =>
    exact .inr ⟨rfl, hnone, by simp, fun hunmapped => absurd hunmapped hstatus⟩
  | unlisted b hb =>
    refine .inr ⟨rfl, by simp, ?_, fun _ => hb⟩
    rintro rfl
    cases hb

/-- AuthenticationFailure is reported with the byte of CheckMacFail, and that byte with no other kind. -/
theorem Result.Written.authenticationFailure_iff {r : Result} (h : r.Written) :
    r.kind = .authenticationFailure ↔ r.status = 0x01 := by
  obtain ⟨code, hstatus, hkind, -⟩ | ⟨hkind, -, hstatus, -⟩ := h.code_or_fault
  · rw [hstatus, hkind, kindOf_eq_authenticationFailure_iff]
  · simpa [hkind] using hstatus

theorem Result.Written.communicationError_iff {r : Result} (h : r.Written) :
    r.kind = .communicationError ↔ r.reason ≠ .none := by
  obtain ⟨code, -, hkind, hreason⟩ | ⟨hkind, hreason, -⟩ := h.code_or_fault
  · simp [hkind, hreason, kindOf_ne_communicationError]
  · simp [hkind, hreason]

theorem Result.Written.outcomeOf_of_unmappedStatus {r : Result} (h : r.Written)
    (hunmapped : r.reason = .unmappedStatus) : outcomeOf r.status = none := by
  obtain ⟨code, -, -, hreason⟩ | ⟨-, -, -, hunlisted⟩ := h.code_or_fault
  · rw [hreason] at hunmapped
    cases hunmapped
  · exact hunlisted hunmapped

theorem Result.Written.exists_code {r : Result} (h : r.Written) (hk : r.kind ≠ .communicationError) :
    ∃ code, outcomeOf r.status = some code ∧ r.kind = kindOf code := by
  obtain ⟨code, hstatus, hkind, -⟩ | ⟨hkind, -⟩ := h.code_or_fault
  · exact ⟨code, by rw [hstatus, outcomeOf_byte], hkind⟩
  · exact absurd hkind hk

/-- What is issued leaves a record in one of the forms in which the block writes one. -/
theorem written_of_perform_issue {s t : State} {w : Encoded} (h : perform (.issue w) s = .next t) :
    t.res.Written := by
  rw [perform_issue_eq] at h
  cases h
  exact issueRes_written s.cfg s.acc w

/-! ### A status byte handed in (R89, R93; log entry 5) -/

section Issue
variable (c : Config) (acc : Word) {r : Request}

theorem issueRes_decRsp (h : r.opsel = 0x0A) : issueRes c acc (.request r) = decRspRes c r.data.bytes := by
  simp only [issueRes, decode, decodeRequest_decRsp h, resAfter]

theorem issueRes_stMap (h : r.opsel = 0x0B) : issueRes c acc (.request r) = mapStatus r.a [] := by
  simp only [issueRes, decode, decodeRequest_stMap h, resAfter]

end Issue

/-- `ST.MAP` of a code's byte reports the code. -/
theorem exec_stMap_byte (code : StatusCode) (s : State) : exec (.stMap code.byte) s =
    .next { s with res := { Result.reset with kind := kindOf code, status := code.byte } } := by
  rw [exec_eq, resAfter, mapStatus_listed_record (outcomeOf_byte code)]
  rfl

/-- The instruction of a status row does what `ST.MAP` of the row's byte does. -/
theorem exec_of_decodeStatus {b : Byte} {i : Instr} (h : decodeStatus b = .ok i) (s : State) :
    exec i s = exec (.stMap b) s := by
  calc exec i s = perform (.issue (.status b)) s :=
      (perform_issue_of_decode (s := s) (w := .status b) h).symm
    _ = exec (.stMap b) s := by
      rw [perform_issue_eq, issueAcc_status, issueRes_status, exec_eq]
      rfl

end Machine

/-! ### The statements on the status map -/

open Machine

/-- Settles O42: the first two parts hold of every record the block writes; in the third, each way of handing in the
byte is the mapper on that byte, which finds the code. -/
theorem checkMacFailKeptApart : Obligations.CheckMacFailKeptApart := by
  refine ⟨fun s t w h => (written_of_perform_issue h).authenticationFailure_iff, fun s t w h => ?_,
    fun s w b code hb hw => ?_⟩
  · have hwritten := written_of_perform_issue h
    exact ⟨hwritten.communicationError_iff, hwritten.outcomeOf_of_unmappedStatus, hwritten.exists_code⟩
  · have hmap : issueRes s.cfg s.acc w = mapStatus b [] := by
      obtain rfl | ⟨f, rfl, hf⟩ | ⟨r, rfl, hsel, rfl⟩ | ⟨r, rfl, hsel, hd⟩ := hw
      · exact issueRes_status s.cfg s.acc b
      · rw [issueRes_response, hf, decRspRes_singleton]
      · exact issueRes_stMap s.cfg s.acc hsel
      · rw [issueRes_decRsp s.cfg s.acc hsel, hd, decRspRes_singleton]
    rw [hb, mapStatus_listed (outcomeOf_byte code)] at hmap
    refine ⟨_, perform_issue_eq w s, ?_⟩
    simp only [hmap]
    exact ⟨rfl, hb.symm, kindOf_ne_communicationError code⟩

/-- Settles O37: the six bytes are those of the codes, and any other is unlisted. -/
theorem stMapResult : Obligations.StMapResult := by
  refine fun s => ⟨exec_stMap_byte .ok s, exec_stMap_byte .checkMacFail s, exec_stMap_byte .execError s,
    exec_stMap_byte .ready s, exec_stMap_byte .paddingError s, exec_stMap_byte .badParameters s, fun b hb => ?_⟩
  rw [exec_eq, resAfter, mapStatus_unlisted_record (outcomeOf_none_iff.2 hb)]
  rfl

/-- Settles O38: each row is the instruction its byte decodes to. -/
theorem statusCodeKinds : Obligations.StatusCodeKinds := by
  intro s
  obtain ⟨hok, hcheckMac, hexec, hready, hpadding, hbad, -⟩ := stMapResult s
  exact ⟨(exec_of_decodeStatus (b := 0x00) rfl s).trans hok,
    (exec_of_decodeStatus (b := 0x01) rfl s).trans hcheckMac,
    (exec_of_decodeStatus (b := 0x0F) rfl s).trans hexec,
    (exec_of_decodeStatus (b := 0x11) rfl s).trans hready,
    (exec_of_decodeStatus (b := 0x98) rfl s).trans hpadding,
    (exec_of_decodeStatus (b := 0x99) rfl s).trans hbad⟩

end Sys2Proof

/-! PROOFS. Exceptions (60_exceptions.md): every step answers, and which operation reports which error. The layers
are, in order: what an error records, a record without a status byte, the status byte of a reception and the result
of `DEC.RSP`, a reserved selector. -/

namespace Sys2Proof

/-- The reasons of the structural check are all but the mapper's own (60_exceptions.md R96). -/
theorem Reason.mem_structural_iff (r : Reason) :
    r ∈ [.empty, .badCount, .short, .long, .crcMismatch] ↔ r ≠ .none ∧ r ≠ .unmappedStatus := by
  cases r <;> decide

/-! ### The status byte of a reception (R84, R85) -/

section StatusReceived
variable {c : Config} {d : Bytes}

theorem statusReceived_singleton {b x : Byte} : StatusReceived c [b] x ↔ x = b := by
  simpa [StatusReceived] using eq_comm

/-- A reception that is not one byte has a status byte only as the whole payload of a sound frame. -/
theorem statusReceived_framed (hone : d.length ≠ 1) {x : Byte} :
    StatusReceived c d x ↔ frameCheck c.crcStep d minResponseCount = .none ∧ c.framedStatus = true ∧
      (byteAt d 0).toNat = 4 ∧ byteAt d 1 = x := by
  have hbare : d ≠ [x] := by
    rintro rfl
    exact hone rfl
  simp only [StatusReceived, hbare, hone, false_or, ne_eq, not_false_eq_true, true_and, minResponseCount]

end StatusReceived

namespace Machine

/-! ### What an error records (R97; 10_state.md R20) -/

theorem errRes_recordsNothingElse (kind : Kind) (reason : Reason) (status : Byte) :
    (Result.errRes kind reason status).RecordsNothingElse := rfl

/-- A status mapped without output records the kind, the byte and the reason alone. -/
theorem mapStatus_nil_recordsNothingElse (b : Byte) : (mapStatus b []).RecordsNothingElse := by
  obtain ⟨code, -, h⟩ | ⟨-, h⟩ := mapStatus_cases b [] <;> rw [h] <;> rfl

/-- A communication error is never written with data: a record with data has the kind of a listed code. -/
theorem Result.Written.recordsNothingElse {r : Result} (h : r.Written) (hk : r.kind = .communicationError) :
    r.RecordsNothingElse := by
  cases h with
  | success => exact absurd hk (kindOf_ne_communicationError .ok)
  | status code => exact absurd hk (kindOf_ne_communicationError code)
  | refused | unsound | unlisted => exact errRes_recordsNothingElse ..

/-! ### Whether a record reports a status byte (R91, R92) -/

theorem mapStatus_reason_mem (b : Byte) (out : Bytes) :
    (mapStatus b out).reason ∈ [.none, .unmappedStatus] := by
  obtain ⟨code, -, h⟩ | ⟨-, h⟩ := mapStatus_cases b out <;> simp [h]

/-- With no status byte there is nothing to report, and a Success or a fault found before the mapper reports nothing. -/
theorem Result.reportsStatus_of_no_status {r : Result} {P : Byte → Prop} (hP : ∀ b, ¬ P b)
    (hkind : r.kind = .success ∨ r.kind = .communicationError) (hreason : r.reason ≠ .unmappedStatus) :
    r.ReportsStatus P := by
  obtain hk | hk := hkind <;> simp [Result.ReportsStatus, hP, hk, hreason]

/-- `DEC.RSP` has one of three results: the report of the status byte received, the data of a sound frame, the fault
of an unsound one (42_frame_decode.md R83 to R86). Only in the first is there a status byte. -/
theorem decRspRes_cases (c : Config) (d : Bytes) :
    (∃ b out, decRspRes c d = mapStatus b out ∧
      (d.length = 1 ∨ frameCheck c.crcStep d minResponseCount = .none) ∧ ∀ x, StatusReceived c d x ↔ x = b) ∨
    (decRspRes c d = Result.okRes .ok (out := responseData d) ∧
      frameCheck c.crcStep d minResponseCount = .none ∧ ∀ b, ¬ StatusReceived c d b) ∨
    (decRspRes c d = Result.errRes .communicationError (frameCheck c.crcStep d minResponseCount) 0x00 ∧
      d.length ≠ 1 ∧ frameCheck c.crcStep d minResponseCount ≠ .none ∧ ∀ b, ¬ StatusReceived c d b) := by
  by_cases hone : d.length = 1
  · obtain ⟨b, rfl⟩ := List.length_eq_one_iff.1 hone
    exact .inl ⟨b, [], decRspRes_singleton c b, .inl rfl, fun _ => statusReceived_singleton⟩
  by_cases hsound : frameCheck c.crcStep d minResponseCount = .none
  · have hdeliver : decRspRes c d = deliverResponse c (responseData d) := by
      simp only [decRspRes, hone, hsound, if_false, if_true]
    obtain ⟨hcount, -⟩ := count_of_frameCheck (by decide) hsound
    obtain ⟨hdata, hmin, -⟩ := responseData_length hsound
    obtain ⟨hframed, hlen, h⟩ | ⟨hdataForm, h⟩ := deliverResponse_cases c (responseData d)
    · have hfour : (byteAt d 0).toNat = 4 := by omega
      refine .inl ⟨_, _, hdeliver.trans h, .inr hsound, fun x => ?_⟩
      rw [statusReceived_framed hone, responseData_of_count_eq_four hsound hfour]
      simp only [hsound, hframed, hfour, true_and]
      exact eq_comm
    · refine .inr (.inl ⟨hdeliver.trans h, hsound, fun b hb => ?_⟩)
      obtain ⟨-, hframed, hfour, -⟩ := (statusReceived_framed hone).1 hb
      obtain hbare | hlen := hdataForm
      · simp [hframed] at hbare
      · omega
  · refine .inr (.inr ⟨?_, hone, hsound, fun b hb => hsound ((statusReceived_framed hone).1 hb).1⟩)
    simp only [decRspRes, hone, hsound, if_false]

theorem decRspRes_reports (c : Config) (d : Bytes) : (decRspRes c d).ReportsStatus (StatusReceived c d) := by
  obtain ⟨b, out, h, -, hstatus⟩ | ⟨h, -, hno⟩ | ⟨h, -, -, hno⟩ := decRspRes_cases c d <;> rw [h]
  · rw [show StatusReceived c d = (· = b) from funext fun x => propext (hstatus x)]
    exact mapStatus_reports b out
  · exact Result.reportsStatus_of_no_status hno (.inl rfl) (by simp)
  · exact Result.reportsStatus_of_no_status hno (.inr rfl) (frameCheck_ne_unmappedStatus _ _ _)

/-- `DEC.RSP` gives a reason of the structural check for an unsound frame only (R86). -/
theorem decRspRes_reason_structural_iff (c : Config) (d : Bytes) :
    (decRspRes c d).reason ∈ [.empty, .badCount, .short, .long, .crcMismatch] ↔
      d.length ≠ 1 ∧ frameCheck c.crcStep d minResponseCount ≠ .none := by
  rw [Reason.mem_structural_iff]
  obtain ⟨b, out, h, hsound, -⟩ | ⟨h, hsound, -⟩ | ⟨h, hone, hunsound, -⟩ := decRspRes_cases c d <;> rw [h]
  · have hreason := mapStatus_reason_mem b out
    simp only [List.mem_cons, List.not_mem_nil, or_false] at hreason
    exact iff_of_false (fun ⟨hnone, hunmapped⟩ => hreason.elim hnone hunmapped)
      (fun ⟨hone, hunsound⟩ => hsound.elim hone hunsound)
  · simp [hsound]
  · simp [hone, hunsound, frameCheck_ne_unmappedStatus]

/-! ### A reserved selector (30_encoding.md R42) -/

theorem issueRes_reserved (c : Config) (acc : Word) {r : Request}
    (h : r.opsel ∉ [0x00, 0x01, 0x02, 0x03, 0x04, 0x08, 0x09, 0x0A, 0x0B]) :
    issueRes c acc (.request r) = Result.errRes .parameterError .none 0x99 := by
  simp only [issueRes, decode, decodeRequest_reserved h, rejectRes]

end Machine

/-! ### The statements on exceptions -/

open Machine

/-- Settles O12: by the three things a step can do, and since no form of a written record has the kind of reset. -/
theorem everyStepAnswers : Obligations.EveryStepAnswers := by
  refine ⟨fun s => ?_, fun s w rest h => ?_⟩
  · obtain ⟨-, h⟩ | ⟨_, -, h⟩ | ⟨_, _, -, h⟩ := step_cases s <;> exact ⟨_, h⟩
  · exact ⟨_, (step_of_events_cons h).trans (perform_issue_eq w _), rfl, (issueRes_written _ _ w).kind_ne_none⟩

/-- Settles O43: row by row, each from what its operation writes in `RES`. -/
theorem errorsByOperation : Obligations.ErrorsByOperation := by
  intro s a b c0 c1 d
  refine ⟨fun i hi => ⟨_, exec_eq i s, ?crcUnit⟩, ?encCmd, ?decCmd, ⟨_, exec_eq _ s, ?decRsp⟩,
    ⟨_, exec_eq _ s, ?stMap⟩, fun r hr => ⟨_, perform_issue_eq _ s, ?reserved⟩⟩
  case crcUnit =>
    simp only [List.mem_cons, List.not_mem_nil, or_false] at hi
    obtain rfl | rfl | rfl | rfl | rfl := hi <;> rfl
  case encCmd =>
    rw [← Config.accepts_eq_false_iff]
    cases h : s.cfg.accepts a d.length with
    | true => exact ⟨_, exec_encCmd_of_accepts h b c0 c1, .inl rfl, by simp [kindOf]⟩
    | false =>
      exact ⟨_, exec_encCmd_of_not_accepts h b c0 c1, .inr ⟨rfl, rfl, errRes_recordsNothingElse ..⟩, by simp⟩
  case decCmd =>
    by_cases h : frameCheck s.cfg.crcStep d 7 = .none
    · exact ⟨_, exec_decCmd_of_sound h, .inl rfl, by simp [h, deliverCommand, kindOf], h.symm,
        by simp [deliverCommand]⟩
    · exact ⟨_, exec_decCmd_of_unsound h, .inr ⟨rfl, errRes_recordsNothingElse ..⟩, by simpa using h, rfl,
        frameCheck_ne_unmappedStatus _ _ _⟩
  case decRsp =>
    have hwritten := decRspRes_written s.cfg d
    exact ⟨decRspRes_reason_structural_iff s.cfg d, hwritten.communicationError_iff, hwritten.recordsNothingElse,
      decRspRes_reports s.cfg d⟩
  case stMap =>
    exact ⟨mapStatus_reason_mem a [], (mapStatus_written a (out := []) (Nat.zero_le 1)).communicationError_iff,
      mapStatus_nil_recordsNothingElse a, mapStatus_reports a []⟩
  case reserved =>
    simp only [issueRes_reserved s.cfg s.acc hr]
    exact ⟨rfl, rfl, errRes_recordsNothingElse ..⟩

end Sys2Proof

/-! PROOFS. Reset and runs (70_reset_and_hazards.md): what a reset leaves, and that a run is its events performed in
order. The layers are, in order: one event under any list of events still to come, the run at the host's interface,
the trace a host observes. -/

namespace Sys2Proof.Machine

/-! ### One event and the events still to come (R126; log entry 4) -/

/-- An event answers a next state; it neither reads the events still to come nor changes them. -/
theorem perform_withEvents (e : Event) (s : State) :
    ∃ t : State, ∀ es : List Event, perform e { s with events := es } = .next { t with events := es } := by
  cases e with
  | reset => exact ⟨{ s with acc := 0x0000, res := Result.reset }, fun es => perform_reset_eq { s with events := es }⟩
  | issue w =>
    exact ⟨{ s with acc := issueAcc s.cfg s.acc w, res := issueRes s.cfg s.acc w },
      fun es => perform_issue_eq w { s with events := es }⟩

/-! ### A run at the host's interface -/

theorem run_succ_of_step {s t : State} (h : step s = .next t) (k : Nat) :
    Host.Core.run core (k + 1) s = Host.Core.run core k t := by
  simp only [Host.Core.run, core_step, h]

/-! ### The trace a host observes (R126) -/

theorem trace_reset_cons (es : List Event) (s : State) :
    trace (.reset :: es) s = trace es { s with acc := 0x0000, res := Result.reset } := rfl

theorem trace_issue_cons (w : Encoded) (es : List Event) (s : State) :
    trace (.issue w :: es) s = issueRes s.cfg s.acc w ::
      trace es { s with acc := issueAcc s.cfg s.acc w, res := issueRes s.cfg s.acc w } := by
  simp only [trace, perform_issue_eq]

/-- The trace depends on the parameters and `ACC` alone, not on the old `RES` nor on the events still to come. -/
theorem trace_congr (es : List Event) {s t : State} (hcfg : s.cfg = t.cfg) (hacc : s.acc = t.acc) :
    trace es s = trace es t := by
  induction es generalizing s t with
  | nil => rfl
  | cons e es ih =>
    cases e with
    | reset => exact ih hcfg rfl
    | issue w =>
      rw [trace_issue_cons, trace_issue_cons, hcfg, hacc]
      exact congrArg _ (ih rfl rfl)

/-- Each thing issued leaves one record in the trace, and a reset none. -/
theorem trace_length (es : List Event) (s : State) :
    (trace es s).length = (es.filter (fun e => decide (e ≠ .reset))).length := by
  induction es generalizing s with
  | nil => rfl
  | cons e es ih =>
    cases e with
    | reset => exact ih _
    | issue w => rw [trace_issue_cons, List.length_cons, ih]; rfl

end Sys2Proof.Machine

/-! ### The statements on reset and runs -/

namespace Sys2Proof

open Machine

/-- Settles O13: by induction on the events. The oldest event does the same whether the rest are still to come at the
machine or are performed from outside, and the run goes on from the state it leaves. -/
theorem runPerformsEventsInOrder : Obligations.RunPerformsEventsInOrder := by
  intro es
  induction es with
  | nil => exact fun s => ⟨_, rfl, rfl⟩
  | cons e es ih =>
    intro s
    obtain ⟨u, hu⟩ := perform_withEvents e s
    have hstep : step { s with events := e :: es } = .next { u with events := es } :=
      (step_of_events_cons rfl).trans (hu es)
    obtain ⟨t, hall, hrun⟩ := ih u
    exact ⟨t, (performAll_cons (hu []) es).trans hall, (run_succ_of_step hstep es.length).trans hrun⟩

/-- Settles O14: after the reset both instances have the same parameters and the same `ACC`. -/
theorem sameEventsSameResults : Obligations.SameEventsSameResults := by
  intro es s t hcfg
  refine ⟨?_, trace_length _ s⟩
  rw [trace_reset_cons, trace_reset_cons]
  exact trace_congr es hcfg rfl

/-- Settles O10: a reset writes `ACC` and the whole of `RES`, and whatever is issued after it gets a result. -/
theorem resetWritesEveryRegister : Obligations.ResetWritesEveryRegister :=
  fun s => ⟨_, perform_reset_eq s, rfl, fun w => ⟨_, perform_issue_eq w _, (issueRes_written _ _ w).kind_ne_none⟩⟩

end Sys2Proof

/-! PROOFS. The opcode table's words (30_encoding.md section 1; log entry 6): such a word is never a frame, so it
decodes alike under all parameters, and placed first among the events it is what the next step runs. -/

namespace Sys2Proof

/-! ### A table word as something handed to the block (log entry 6) -/

/-- A table word is handed over as a request or as a status byte, never as a frame. -/
theorem Encoded.ofTableWord_cases (nbits w : Nat) :
    (∃ r, Encoded.ofTableWord nbits w = .request r) ∨ ∃ b, Encoded.ofTableWord nbits w = .status b := by
  dsimp only [Encoded.ofTableWord]
  split
  · exact .inl ⟨_, rfl⟩
  · split
    · exact .inr ⟨_, rfl⟩
    · exact .inl ⟨_, rfl⟩

/-- Only a frame's check reads the parameters, so a table word decodes alike under all of them. -/
theorem decode_ofTableWord_congr (c c' : Config) (nbits w : Nat) :
    decode c (Encoded.ofTableWord nbits w) = decode c' (Encoded.ofTableWord nbits w) := by
  obtain ⟨r, hr⟩ | ⟨b, hb⟩ := Encoded.ofTableWord_cases nbits w
  · rw [hr]; rfl
  · rw [hb]; rfl

theorem decodeTableWord_eq_some_iff (c : Config) {nbits w : Nat} {i : Instr} :
    decodeTableWord nbits w = some i ↔ decode c (Encoded.ofTableWord nbits w) = .ok i := by
  rw [decode_ofTableWord_congr c Config.standard, decodeTableWord]
  cases decode Config.standard (Encoded.ofTableWord nbits w) <;> simp

/-! ### The statement on placed table words -/

open Machine

/-- Settles O9: the word stands first among the events, it decodes under the state's own parameters to the instruction
`decodeTableWord` reads under the standard ones, and taking it leaves the state it was placed in. -/
theorem placedWordRunsNext : Obligations.PlacedWordRunsNext := by
  intro s nbits w i h
  calc step (s.withFetchWord nbits w)
      = perform (.issue (Encoded.ofTableWord nbits w)) s := step_of_events_cons rfl
    _ = exec i s := perform_issue_of_decode ((decodeTableWord_eq_some_iff s.cfg).mp h)

end Sys2Proof
